-- ==== Sys2Proof/Word.lean ====
section
/-! DEFINITION. The word types of the block (spec/00_scope.md rule R7) and the ASCII codes that the wire format
names by a character (spec/00_scope.md rule R8, spec/93_implementation_defined.md section 2). -/

namespace Sys2Proof

/-- A byte: 8 bits, values 0 to 255 (R7). -/
abbrev Byte := BitVec 8

/-- A CRC value: 16 bits (R7). -/
abbrev Crc := BitVec 16

/-- A hex digit's value: 4 bits, 0 to 15 (R7). -/
abbrev Nibble := BitVec 4

namespace Ascii

/-- `'\n'`. -/
abbrev lf : Byte := 0x0A
/-- `'\r'`. -/
abbrev cr : Byte := 0x0D
/-- `'!'`, the start marker of a reply body. -/
abbrev bang : Byte := 0x21
/-- `'-'`. -/
abbrev minus : Byte := 0x2D
/-- `'.'`. -/
abbrev dot : Byte := 0x2E
/-- `'0'`. -/
abbrev zero : Byte := 0x30
/-- `':'`. -/
abbrev colon : Byte := 0x3A
/-- `'?'`, the start marker of a request. -/
abbrev question : Byte := 0x3F
/-- `'D'`, the opcode byte of a discovery request. -/
abbrev upperD : Byte := 0x44
/-- `'P'`, the opcode byte of a poll request. -/
abbrev upperP : Byte := 0x50
/-- The backslash that begins an escape. -/
abbrev backslash : Byte := 0x5C
/-- `'|'`, the field delimiter. -/
abbrev pipe : Byte := 0x7C
/-- The sync byte 0xFF that precedes every reply body (R12). -/
abbrev sync : Byte := 0xFF

end Ascii

end Sys2Proof
end

