-- ==== Sys2Proof/Config.lean ====
section
/-! DEFINITION. The implementation parameters of spec/00_scope.md rule R6 and the values the spec leaves free.

`N_SLOTS`, `MAX_REQ`, `MAX_RESP`, `POLL_W` and `UART_CFG` are the fields of `Params`, which every state carries and no
step changes: a statement over all states is a statement over all values of the parameters. What the spec leaves free
and no step compares (`T_TURN`, `T_SETTLE`, the open part of `render6`) is an opaque constant without a body. -/

namespace Sys2Proof

/-- The UART's fixed configuration `UART_CFG` (R6, R37): OPEN in the spec, an uninterpreted code here. -/
structure UartCfg where
  code : Nat
deriving DecidableEq, Repr

/-- The parameters of R6 that a step reads. -/
structure Params where
  /-- `N_SLOTS`: number of registry slots, at least 1. -/
  nSlots : Nat
  /-- `MAX_REQ`: capacity in bytes of the request line buffer, at least 1. -/
  maxReq : Nat
  /-- `MAX_RESP`: capacity in bytes of the response body buffer, at least 1. -/
  maxResp : Nat
  /-- `POLL_W`: width in bits of `poll_interval`, at least 1. -/
  pollW : Nat
  /-- `UART_CFG`: passed to the UART once, at setup. -/
  uartCfg : UartCfg
deriving DecidableEq, Repr

namespace Config

/-- The parameter values of the machine that `State.reset` stands for: those spec/95_test_vectors.md uses.
DESIGN CHOICE (notes/assumptions/1.md): the spec leaves them OPEN. -/
def referenceParams : Params :=
  { nSlots := 10, maxReq := 16, maxResp := 64, pollW := 16, uartCfg := { code := 0 } }

/-- R6: each numeric parameter is an integer of at least 1. -/
abbrev paramsLegal (p : Params) : Prop :=
  1 ≤ p.nSlots ∧ 1 ≤ p.maxReq ∧ 1 ≤ p.maxResp ∧ 1 ≤ p.pollW

/-- `T_TURN` (R6, R222): a lower bound on time between two steps. The model counts no time (R249), so no step reads it;
the environment's `turnElapsed` stands for its expiry. -/
opaque tTurn : Nat

/-- `T_SETTLE` (R6, R223): as `tTurn`, for `settleElapsed`. -/
opaque tSettle : Nat

/-- The open part of `render6` (R194): the bytes of a value that is no decimal number with at most 6 fraction digits
(a value that needs rounding, negative zero, an infinity, NaN). A free value: it has no body, so nothing is known of it
(notes/assumptions/3.md). -/
opaque render6Open : Nat → List Byte

end Config

end Sys2Proof
end

