-- ==== Sys2Proof/Syntax.lean ====
section
/-! DEFINITION. The instructions of the block: one constructor of `Instr` per row of spec/opcode_table.json
(spec/30_encoding.md), and the data they carry. -/

namespace Sys2Proof

/-- `Value`, the type of `sensor_value` (R6), OPEN in the spec. Its elements are told apart only as far as R194 tells
them apart: a value that is exactly a decimal number with at most 6 fraction digits, or any other value.
DESIGN CHOICE (notes/assumptions/3.md). -/
inductive Value where
  /-- The number `micros / 1000000`. -/
  | decimal (micros : Int)
  /-- Any other value; `code` only names it. -/
  | other (code : Nat)
deriving DecidableEq, Repr

/-- `zero : Value` (R6). -/
def Value.zero : Value := .decimal 0

/-- The two opcodes of a request frame (R74). -/
inductive Opcode where
  | discover
  | poll
deriving DecidableEq, Repr

/-- The bytes of a 10-byte request frame that its shape leaves free (R72): the two id digits (offsets 1 and 2), the
separator (offset 3) and the four CRC digits (offsets 6 to 9), each as it was received. -/
structure Request where
  idHi : Byte
  idLo : Byte
  sep : Byte
  crc3 : Byte
  crc2 : Byte
  crc1 : Byte
  crc0 : Byte
deriving DecidableEq, Repr

/-- A host command record `{op, id, poll, desc, unit, value}` (R80); `op` is 2 bits. -/
structure HostCommand where
  op : BitVec 2
  id : Byte
  poll : Nat
  desc : List Byte
  unit : List Byte
  value : Value
deriving DecidableEq, Repr

/-- The frame assembler's state as R70 and R155 read it: `IDLE`, `ACCUMULATING` with room, `ACCUMULATING` with the
buffer full. -/
inductive AssemblerState where
  | idle
  | accumulating
  | full
deriving DecidableEq, Repr

/-- One constructor per row of spec/opcode_table.json, in the table's order. -/
inductive Instr where
  /-- `RX_START` (R150): a `'?'` received in `IDLE`. -/
  | rxStart
  /-- `RX_DISCARD` (R151): any other byte received in `IDLE`. -/
  | rxDiscard (b : Byte)
  /-- `RX_CR` (R152): a `\r` received in `ACCUMULATING`. -/
  | rxCr
  /-- `RX_LF` (R153): a `\n` received in `ACCUMULATING`; it ends the frame. -/
  | rxLf
  /-- `RX_DATA` (R154): any other byte received in `ACCUMULATING` while there is room. -/
  | rxData (b : Byte)
  /-- `RX_OVERFLOW` (R155): the same byte with the buffer full. -/
  | rxOverflow (b : Byte)
  /-- `REQ_DISCOVER` (R176): a request frame with opcode `'D'`, at its end. -/
  | reqDiscover (r : Request)
  /-- `REQ_POLL` (R177): a request frame with opcode `'P'`, at its end. -/
  | reqPoll (r : Request)
  /-- `HOST_NOP` (R140). -/
  | hostNop
  /-- `HOST_CONFIGURE` (R130). -/
  | hostConfigure (id : Byte) (poll : Nat) (desc : List Byte) (unit : List Byte)
  /-- `HOST_SET_VALUE` (R136). -/
  | hostSetValue (id : Byte) (value : Value)
  /-- `HOST_RESERVED` (R80, R247): op 11. -/
  | hostReserved
deriving DecidableEq, Repr

end Sys2Proof
end

