-- ==== Sys2Proof/Machine/Codec.lean ====
section
/-! DEFINITION. The codec and the CRC-16 unit (spec/40_codec.md): pure functions, defined on every operand. -/

namespace Sys2Proof.Machine

/-- Entries 0x00 to 0x1f of the table of R100. -/
def crcRows00 : List Crc :=
  [0x0000, 0xc0c1, 0xc181, 0x0140, 0xc301, 0x03c0, 0x0280, 0xc241,
   0xc601, 0x06c0, 0x0780, 0xc741, 0x0500, 0xc5c1, 0xc481, 0x0440,
   0xcc01, 0x0cc0, 0x0d80, 0xcd41, 0x0f00, 0xcfc1, 0xce81, 0x0e40,
   0x0a00, 0xcac1, 0xcb81, 0x0b40, 0xc901, 0x09c0, 0x0880, 0xc841]

/-- Entries 0x20 to 0x3f of the table of R100. -/
def crcRows20 : List Crc :=
  [0xd801, 0x18c0, 0x1980, 0xd941, 0x1b00, 0xdbc1, 0xda81, 0x1a40,
   0x1e00, 0xdec1, 0xdf81, 0x1f40, 0xdd01, 0x1dc0, 0x1c80, 0xdc41,
   0x1400, 0xd4c1, 0xd581, 0x1540, 0xd701, 0x17c0, 0x1680, 0xd641,
   0xd201, 0x12c0, 0x1380, 0xd341, 0x1100, 0xd1c1, 0xd081, 0x1040]

/-- Entries 0x40 to 0x5f of the table of R100. -/
def crcRows40 : List Crc :=
  [0xf001, 0x30c0, 0x3180, 0xf141, 0x3300, 0xf3c1, 0xf281, 0x3240,
   0x3600, 0xf6c1, 0xf781, 0x3740, 0xf501, 0x35c0, 0x3480, 0xf441,
   0x3c00, 0xfcc1, 0xfd81, 0x3d40, 0xff01, 0x3fc0, 0x3e80, 0xfe41,
   0xfa01, 0x3ac0, 0x3b80, 0xfb41, 0x3900, 0xf9c1, 0xf881, 0x3840]

/-- Entries 0x60 to 0x7f of the table of R100. -/
def crcRows60 : List Crc :=
  [0x2800, 0xe8c1, 0xe981, 0x2940, 0xeb01, 0x2bc0, 0x2a80, 0xea41,
   0xee01, 0x2ec0, 0x2f80, 0xef41, 0x2d00, 0xedc1, 0xec81, 0x2c40,
   0xe401, 0x24c0, 0x2580, 0xe541, 0x2700, 0xe7c1, 0xe681, 0x2640,
   0x2200, 0xe2c1, 0xe381, 0x2340, 0xe101, 0x21c0, 0x2080, 0xe041]

/-- Entries 0x80 to 0x9f of the table of R100. -/
def crcRows80 : List Crc :=
  [0xa001, 0x60c0, 0x6180, 0xa141, 0x6300, 0xa3c1, 0xa281, 0x6240,
   0x6600, 0xa6c1, 0xa781, 0x6740, 0xa501, 0x65c0, 0x6480, 0xa441,
   0x6c00, 0xacc1, 0xad81, 0x6d40, 0xaf01, 0x6fc0, 0x6e80, 0xae41,
   0xaa01, 0x6ac0, 0x6b80, 0xab41, 0x6900, 0xa9c1, 0xa881, 0x6840]

/-- Entries 0xa0 to 0xbf of the table of R100. -/
def crcRowsa0 : List Crc :=
  [0x7800, 0xb8c1, 0xb981, 0x7940, 0xbb01, 0x7bc0, 0x7a80, 0xba41,
   0xbe01, 0x7ec0, 0x7f80, 0xbf41, 0x7d00, 0xbdc1, 0xbc81, 0x7c40,
   0xb401, 0x74c0, 0x7580, 0xb541, 0x7700, 0xb7c1, 0xb681, 0x7640,
   0x7200, 0xb2c1, 0xb381, 0x7340, 0xb101, 0x71c0, 0x7080, 0xb041]

/-- Entries 0xc0 to 0xdf of the table of R100. -/
def crcRowsc0 : List Crc :=
  [0x5000, 0x90c1, 0x9181, 0x5140, 0x9301, 0x53c0, 0x5280, 0x9241,
   0x9601, 0x56c0, 0x5780, 0x9741, 0x5500, 0x95c1, 0x9481, 0x5440,
   0x9c01, 0x5cc0, 0x5d80, 0x9d41, 0x5f00, 0x9fc1, 0x9e81, 0x5e40,
   0x5a00, 0x9ac1, 0x9b81, 0x5b40, 0x9901, 0x59c0, 0x5880, 0x9841]

/-- Entries 0xe0 to 0xff of the table of R100. -/
def crcRowse0 : List Crc :=
  [0x8801, 0x48c0, 0x4980, 0x8941, 0x4b00, 0x8bc1, 0x8a81, 0x4a40,
   0x4e00, 0x8ec1, 0x8f81, 0x4f40, 0x8d01, 0x4dc0, 0x4c80, 0x8c41,
   0x4400, 0x84c1, 0x8581, 0x4540, 0x8701, 0x47c0, 0x4680, 0x8641,
   0x8201, 0x42c0, 0x4380, 0x8341, 0x4100, 0x81c1, 0x8081, 0x4040]

/-- The CRC table `T[0..256)` (R100). The spec takes it from general knowledge: UNVERIFIED (notes/assumptions/16.md). -/
def crcTable : List Crc :=
  crcRows00 ++ crcRows20 ++ crcRows40 ++ crcRows60 ++
    crcRows80 ++ crcRowsa0 ++ crcRowsc0 ++ crcRowse0

/-- One turn of the generator of R100: a right shift, with 0xA001 added where a 1 was shifted out. -/
def crcShift (c : Crc) : Crc := if c.getLsbD 0 then (c >>> 1) ^^^ 0xA001 else c >>> 1

/-- `n` turns of the generator. -/
def crcShifts : Nat → Crc → Crc
  | 0, c => c
  | n + 1, c => crcShifts n (crcShift c)

/-- `crc16_step(b, crc)` (R101). -/
def crc16Step (b : Byte) (crc : Crc) : Crc :=
  (crc >>> 8) ^^^ crcTable.getD ((crc ^^^ b.setWidth 16) &&& 0xFF).toNat 0

/-- `crc16_of(bs)` (R102). -/
def crc16Of (bs : List Byte) : Crc := bs.foldl (fun crc b => crc16Step b crc) 0

/-- `hex_digit_to_value(c)` (R104): a byte that is no hex digit gives 0. -/
def hexValue (c : Byte) : Nibble :=
  if 0x30 ≤ c ∧ c ≤ 0x39 then (c - 0x30).setWidth 4
  else if 0x41 ≤ c ∧ c ≤ 0x46 then (c - 0x41 + 10).setWidth 4
  else if 0x61 ≤ c ∧ c ≤ 0x66 then (c - 0x61 + 10).setWidth 4
  else 0

/-- `value_to_hex_digit(v)` (R105), lower case. -/
def hexDigit (v : Nibble) : Byte :=
  if v ≤ 9 then 0x30 + v.setWidth 8 else 0x61 + (v.setWidth 8 - 10)

/-- Two hex digits read as a byte, high nibble first (R73, R109). -/
def hexPair (hi lo : Byte) : Byte := ((hexValue hi).setWidth 8 <<< 4) ||| (hexValue lo).setWidth 8

/-- Four hex digits read as a CRC, high nibble first (R73, R172). -/
def hexQuad (d3 d2 d1 d0 : Byte) : Crc :=
  ((hexValue d3).setWidth 16 <<< 12) ||| ((hexValue d2).setWidth 16 <<< 8) |||
    ((hexValue d1).setWidth 16 <<< 4) ||| (hexValue d0).setWidth 16

/-- `hex2(x)` (R106). -/
def hex2 (x : Byte) : List Byte := [hexDigit (x.extractLsb' 4 4), hexDigit (x.extractLsb' 0 4)]

/-- `hex4(x)` (R106). -/
def hex4 (x : Crc) : List Byte :=
  [hexDigit (x.extractLsb' 12 4), hexDigit (x.extractLsb' 8 4),
    hexDigit (x.extractLsb' 4 4), hexDigit (x.extractLsb' 0 4)]

/-- `needs_escape(b)` (R107). -/
def needsEscape (b : Byte) : Bool :=
  decide (b < 0x20) || decide (0x7F ≤ b) || b == Ascii.bang || b == Ascii.question || b == Ascii.pipe ||
    b == Ascii.backslash

/-- `Q(b)` (R108). -/
def quoteByte (b : Byte) : List Byte := if needsEscape b then Ascii.backslash :: hex2 b else [b]

/-- `Q(bs)` (R108). -/
def quote (bs : List Byte) : List Byte := bs.flatMap quoteByte

/-- `unquote(bs)` (R109); no path of the block uses it. -/
def unquote : List Byte → List Byte
  | b :: c1 :: c2 :: rest =>
    if b = Ascii.backslash then hexPair c1 c2 :: unquote rest else b :: unquote (c1 :: c2 :: rest)
  | b :: rest => b :: unquote rest
  | [] => []

/-- The digit `'0' + n` for `n < 10`. -/
def decDigit (n : Nat) : Byte := Ascii.zero + BitVec.ofNat 8 n

/-- The decimal digits of `n` put before `tail`; `fuel` bounds the number of digits. -/
def decOnto : Nat → Nat → List Byte → List Byte
  | 0, _, tail => tail
  | fuel + 1, n, tail =>
    if n < 10 then decDigit n :: tail else decOnto fuel (n / 10) (decDigit (n % 10) :: tail)

/-- `dec(n)` (R110). -/
def dec (n : Nat) : List Byte := decOnto (n + 1) n []

/-- The low `k` decimal digits of `n`, most significant first. -/
def fixedDigits : Nat → Nat → List Byte
  | 0, _ => []
  | k + 1, n => fixedDigits k (n / 10) ++ [decDigit (n % 10)]

/-- The text of `micros / 1000000` with exactly 6 fraction digits (R194 property P3). -/
def renderDecimal (micros : Int) : List Byte :=
  (if micros < 0 then [Ascii.minus] else []) ++ dec (micros.natAbs / 1000000) ++ [Ascii.dot] ++
    fixedDigits 6 (micros.natAbs % 1000000)

/-- `render6` (R194): P3 where the spec fixes the result, a free value where it is OPEN (notes/assumptions/3.md). -/
def render6 (v : Value) : List Byte :=
  match v with
  | .decimal micros => renderDecimal micros
  | .other code => Config.render6Open code

end Sys2Proof.Machine
end

