-- ==== Sys2Proof/Machine/State.lean ====
section
/-! DEFINITION. The state of the block (spec/10_state.md rules R22 to R33), the environment's side of its ports
(R35 to R39), what a claim may observe (R40), and the state after reset (spec/70_reset_and_hazards.md rule R270). -/

namespace Sys2Proof.Machine

/-- `phase` (R25), in the order of its table. -/
inductive Phase where
  | off
  | listen
  | txTurn
  | txSettle
  | txSync
  | txBody
  | txCrc
  | txCr
  | txLf
  | txDrain
deriving DecidableEq, Repr

/-- `de` (R31). -/
inductive Direction where
  | undriven
  | rx
  | tx
deriving DecidableEq, Repr

/-- One registry slot (R22); it is free when `desc = []`. -/
structure Slot where
  desc : List Byte
  devId : Byte
  poll : Nat
  unit : List Byte
  value : Value
  haveValue : Bool
deriving DecidableEq, Repr

/-- What the environment does that is no host command and no received byte and on which a step is taken (R11): the input
labels of R38 that end a wait, the UART's taking of a byte, and reset (R271). -/
inductive Label where
  | turnElapsed
  | settleElapsed
  /-- The UART takes the byte the block offers: the step of a `TxWrite` label. -/
  | txWrite
  | txComplete
  | rst
deriving DecidableEq, Repr

/-- A change of a pin that the UART drives (R32, R37). It is no step: the next step sees it (R38, R282). -/
inductive Pin where
  /-- The UART drives `tx_ready`. -/
  | txReady (v : Bool)
  /-- The UART sets `txc`: it has shifted out its last byte and has none pending. -/
  | txcRise
deriving DecidableEq, Repr

/-- What the environment offers. -/
inductive Input where
  | host (c : HostCommand)
  | rx (b : Byte)
  | label (l : Label)
  | pin (p : Pin)
deriving DecidableEq, Repr

/-- The output labels of R38; a `TxWrite` is recorded with `de` at that step (R40). -/
inductive OutLabel where
  | txWrite (b : Byte) (de : Direction)
  | uartConfigure (cfg : UartCfg)
deriving DecidableEq, Repr

/-- The drop tags of R241: observations of the model, no hardware output. -/
inductive DropTag where
  | frameMalformed
  | crcMismatch
  | unknownId
  | noPendingValue
  | configNoDesc
  | frameOverflow
  | unknownIdSet
  | registryFull
deriving DecidableEq, Repr

/-- The reasons of R247: inputs the spec gives no meaning but the mark `refused`. -/
inductive RefuseReason where
  | hostIdRange
  | hostPollRange
  | hostNulByte
  | hostReservedOp
deriving DecidableEq, Repr

/-- The state. The fields from `slots` to `refused` are the block's own (R22 to R33). -/
structure State where
  /-- The parameters of R6; no step changes them. -/
  params : Params
  /-- `slot[0..N_SLOTS)` (R22). -/
  slots : List Slot
  /-- `setup_done` (R23). -/
  setupDone : Bool
  /-- `fa_buf[0..MAX_REQ)` (R24). -/
  faBuf : List Byte
  /-- `fa_idx` (R24). -/
  faIdx : Nat
  /-- `phase` (R25). -/
  phase : Phase
  /-- `resp` (R27). -/
  resp : List Byte
  /-- `tx_pos` (R28). -/
  txPos : Nat
  /-- `crc_acc` (R29). -/
  crcAcc : Crc
  /-- `pending_clear` (R30). -/
  pendingClear : Option Nat
  /-- `de` (R31). -/
  de : Direction
  /-- `refused` (R33). -/
  refused : Bool
  /-- The pin `tx_ready` (R37), driven by the UART. -/
  txReady : Bool
  /-- The UART's transmit-complete flag `txc` (R32). -/
  txc : Bool
  /-- The configuration the UART holds: none before `UartConfigure`, lost at reset (R135, R272). DEDUCED
  (notes/assumptions/11.md). -/
  uart : Option UartCfg
  /-- The MODEL's own: what the environment offers and the block has not taken, in the order in which the environment
  wants it taken (R39, R245). -/
  inputs : List Input
  /-- The MODEL's own: the output labels so far, oldest first (R40). -/
  outs : List OutLabel
  /-- The MODEL's own: the drop tags so far, oldest first (R40, R241). -/
  drops : List DropTag
  /-- The MODEL's own: the reasons of the refused steps so far, oldest first (R247). -/
  refusals : List RefuseReason
deriving DecidableEq, Repr

/-- Why the machine stops. The block itself has no fault (R240), and no state that the invariant `State.Inv` of
Sys2Proof/Safety.lean admits reaches this one. -/
inductive Fault where
  /-- Raised by the transmitter where `tx_pos` names no byte of `resp` in `TX_BODY`, or no CRC digit in `TX_CRC`: R28
  bounds `tx_pos` there, so the spec names no byte to write. Safe: it claims nothing of such a state. DESIGN CHOICE
  (notes/assumptions/14.md). -/
  | txPosRange
deriving DecidableEq, Repr

/-- Why an instruction has no meaning. -/
inductive Refusal where
  /-- Raised by `exec` for an instruction that has no meaning yet: for none in this model. Safe. -/
  | notModelled (mnemonic : String)
deriving DecidableEq, Repr

/-- A free slot (R22). R270 lets its other fields hold any value; zeros here (notes/assumptions/2.md). -/
def Slot.free : Slot :=
  { desc := [], devId := 0, poll := 0, unit := [], value := Value.zero, haveValue := false }

/-- R270 for given parameters, with nothing offered and nothing observed yet. The contents of `fa_buf`, the other fields
of a free slot and the UART's two pins have no reset value in the spec: zeros (notes/assumptions/2.md). -/
def State.resetOf (p : Params) : State :=
  { params := p
    slots := List.replicate p.nSlots Slot.free
    setupDone := false
    faBuf := List.replicate p.maxReq 0
    faIdx := 0
    phase := .off
    resp := []
    txPos := 0
    crcAcc := 0
    pendingClear := none
    de := .undriven
    refused := false
    txReady := false
    txc := false
    uart := none
    inputs := []
    outs := []
    drops := []
    refusals := [] }

/-- The machine right after reset. -/
def State.reset : State := State.resetOf Config.referenceParams

end Sys2Proof.Machine
end

