-- ==== Sys2Proof/Machine/Encoder.lean ====
section
/-! DEFINITION. The response encoder: building a reply body (spec/44_response_encoder.md rules R190 to R193), the body
texts (spec/30_encoding.md rules R76, R77) and the wire image of a reply (R78). -/

namespace Sys2Proof.Machine

/-- `resp_append(b)` for a buffer of capacity `max` (R190): a byte that does not fit is lost. -/
def respAppend (max : Nat) (resp : List Byte) (b : Byte) : List Byte :=
  if resp.length < max then resp ++ [b] else resp

/-- `resp_append` of each byte in order. -/
def respAppendAll (max : Nat) (resp bs : List Byte) : List Byte := bs.foldl (respAppend max) resp

/-- `quote_append(resp, b)` (R108): the bytes of `Q(b)` one at a time, so an escape can be cut. -/
def quoteAppend (max : Nat) (resp : List Byte) (b : Byte) : List Byte := respAppendAll max resp (quoteByte b)

/-- `quote_append` of each byte in order. -/
def quoteAppendAll (max : Nat) (resp bs : List Byte) : List Byte := bs.foldl (quoteAppend max) resp

/-- The marker and the id that begin every body: `'!'` and `hex2(dev_id)` (R191 to R193). -/
def appendHead (max : Nat) (resp : List Byte) (x : Slot) : List Byte :=
  respAppendAll max (respAppend max resp Ascii.bang) (hex2 x.devId)

/-- `ENCODE_DISCOVERY` (R191). -/
def encodeDiscovery (max : Nat) (x : Slot) : List Byte :=
  let resp := appendHead max [] x
  let resp := respAppend max (respAppend max resp Ascii.colon) Ascii.upperD
  let resp := respAppend max (respAppendAll max resp (dec x.poll)) Ascii.pipe
  let resp := respAppend max (quoteAppendAll max resp x.desc) Ascii.pipe
  respAppend max (quoteAppendAll max resp x.unit) Ascii.pipe

/-- `ENCODE_POLL` (R192). -/
def encodePoll (max : Nat) (x : Slot) : List Byte :=
  let resp := appendHead max [] x
  let resp := respAppend max (respAppend max resp Ascii.colon) Ascii.upperP
  respAppend max (quoteAppendAll max resp (render6 x.value)) Ascii.pipe

/-- `body_D(slot)` (R76). -/
def bodyDiscovery (x : Slot) : List Byte :=
  [Ascii.bang] ++ hex2 x.devId ++ [Ascii.colon, Ascii.upperD] ++ dec x.poll ++ [Ascii.pipe] ++
    quote x.desc ++ [Ascii.pipe] ++ quote x.unit ++ [Ascii.pipe]

/-- `body_P(slot)` (R77). -/
def bodyPoll (x : Slot) : List Byte :=
  [Ascii.bang] ++ hex2 x.devId ++ [Ascii.colon, Ascii.upperP] ++ quote (render6 x.value) ++ [Ascii.pipe]

/-- The bytes a reply with this body text puts on the wire (R78), for a body buffer of capacity `max`. -/
def wire (max : Nat) (body : List Byte) : List Byte :=
  [Ascii.sync] ++ body.take max ++ hex4 (crc16Of (body.take max)) ++ [Ascii.cr, Ascii.lf]

end Sys2Proof.Machine
end

