-- ==== Sys2Proof/Machine/Flags.lean ====
section
/-! DEFINITION. The block's flags and marks (spec/10_state.md rule R32): each slot's `have_value`, `setup_done`, the
UART's `txc`, and the model-only `refused` (R33). The block has no condition codes. -/

namespace Sys2Proof.Machine

/-- A slot is occupied when it has a description (R22). -/
def Slot.occupied (x : Slot) : Bool := !x.desc.isEmpty

/-- `have_value` consumed (R199). -/
def Slot.delivered (x : Slot) : Slot := { x with haveValue := false }

/-- A new reading, pending delivery (R136). -/
def Slot.withValue (x : Slot) (v : Value) : Slot := { x with value := v, haveValue := true }

/-- `slot[k].have_value <- 0` (R199); a write of that one field only (R54). -/
def State.clearHaveValue (s : State) (k : Nat) : State := { s with slots := s.slots.modify k Slot.delivered }

/-- `setup_done <- 1` (R135). -/
def State.markSetup (s : State) : State := { s with setupDone := true }

/-- `refused <- 1` (R33, R247). -/
def State.markRefused (s : State) : State := { s with refused := true }

/-- The UART sets `txc` (R32). -/
def State.raiseTxc (s : State) : State := { s with txc := true }

/-- The block clears `txc` (`txc_clr`, R37, R200). -/
def State.clearTxc (s : State) : State := { s with txc := false }

/-- The UART drives `tx_ready` (R37). -/
def State.driveTxReady (s : State) (v : Bool) : State := { s with txReady := v }

/-- The UART changes a pin. -/
def State.drivePin (s : State) (p : Pin) : State :=
  match p with
  | .txReady v => s.driveTxReady v
  | .txcRise => s.raiseTxc

end Sys2Proof.Machine
end

