-- ==== Sys2Proof/WellFormed.lean ====
section
/-! DEFINITION. Which instructions are well formed: those whose operands some input of the block can carry. -/

namespace Sys2Proof

/-- A byte the frame assembler can store after the start marker: any but `\r` and `\n` (R154). -/
def storable (b : Byte) : Bool := b != Ascii.cr && b != Ascii.lf

/-- Every free byte of the request can stand in an assembled frame (spec/90_conflicts.md C3: byte 3 may be any byte
"other than `\r` and `\n`"). -/
def Request.wellFormed (r : Request) : Bool :=
  storable r.idHi && storable r.idLo && storable r.sep &&
    storable r.crc3 && storable r.crc2 && storable r.crc1 && storable r.crc0

/-- The byte classes of R70, and requests made of storable bytes. The operands of CONFIGURE are not limited here: R131
gives a CONFIGURE with operands out of range its effect, a refusal mark. -/
def Instr.wellFormed : Instr → Bool
  | .rxStart => true
  | .rxDiscard b => b != Ascii.question
  | .rxCr => true
  | .rxLf => true
  | .rxData b => storable b
  | .rxOverflow b => storable b
  | .reqDiscover r => r.wellFormed
  | .reqPoll r => r.wellFormed
  | .hostNop => true
  | .hostConfigure _ _ _ _ => true
  | .hostSetValue _ _ => true
  | .hostReserved => true

end Sys2Proof
end

