-- ==== Sys2Proof/Decode.lean ====
section
/-! DEFINITION. The decoder and the encoder (spec/30_encoding.md). A `Code` is what stands on one of the block's inputs:
a received byte with the assembler's state (R70), the frame a `\n` ends (R72), or a host command record (R80). -/

namespace Sys2Proof

/-- What is decoded, and what an instruction is encoded as. -/
inductive Code where
  | byte (st : AssemblerState) (b : Byte)
  | frame (bs : List Byte)
  | command (c : HostCommand)
deriving DecidableEq, Repr

/-- Why a frame is not of the shape of R170: the four checks of validation step 1, in the order of R75. -/
inductive DecodeError where
  | frameLength
  | frameStart
  | frameDelimiter
  | frameOpcode
deriving DecidableEq, Repr

/-- The opcode byte (R74). -/
def Opcode.byte : Opcode → Byte
  | .discover => Ascii.upperD
  | .poll => Ascii.upperP

/-- The class of a received byte (R70); in `ACCUMULATING` a byte that is neither `\r` nor `\n` is `RX_DATA` while
there is room (R154) and `RX_OVERFLOW` when the buffer is full (R155). -/
def decodeByte (st : AssemblerState) (b : Byte) : Instr :=
  match st with
  | .idle => if b = Ascii.question then .rxStart else .rxDiscard b
  | .accumulating => if b = Ascii.cr then .rxCr else if b = Ascii.lf then .rxLf else .rxData b
  | .full => if b = Ascii.cr then .rxCr else if b = Ascii.lf then .rxLf else .rxOverflow b

/-- Validation step 1 (R170): the shape of a frame. Bytes 1, 2, 3 and 6 to 9 are taken as they are. -/
def splitFrame (bs : List Byte) : Except DecodeError (Opcode × Request) :=
  match bs with
  | [b0, b1, b2, b3, b4, b5, b6, b7, b8, b9] =>
    let r : Request :=
      { idHi := b1, idLo := b2, sep := b3, crc3 := b6, crc2 := b7, crc1 := b8, crc0 := b9 }
    if b0 ≠ Ascii.question then .error .frameStart
    else if b5 ≠ Ascii.pipe then .error .frameDelimiter
    else if b4 = Ascii.upperD then .ok (.discover, r)
    else if b4 = Ascii.upperP then .ok (.poll, r)
    else .error .frameOpcode
  | _ => .error .frameLength

/-- The request instruction of an opcode. -/
def requestInstr (op : Opcode) (r : Request) : Instr :=
  match op with
  | .discover => .reqDiscover r
  | .poll => .reqPoll r

/-- The instruction of a whole frame, or the check of R170 it fails. -/
def decodeFrame (bs : List Byte) : Except DecodeError Instr :=
  match splitFrame bs with
  | .ok (op, r) => .ok (requestInstr op r)
  | .error e => .error e

/-- The instruction of a host command record (R80); fields a command does not use are ignored. -/
def decodeCommand (c : HostCommand) : Instr :=
  if c.op = 0 then .hostNop
  else if c.op = 1 then .hostConfigure c.id c.poll c.desc c.unit
  else if c.op = 2 then .hostSetValue c.id c.value
  else .hostReserved

/-- The decoder, total on every input. -/
def decode (c : Code) : Except DecodeError Instr :=
  match c with
  | .byte st b => .ok (decodeByte st b)
  | .frame bs => decodeFrame bs
  | .command c => .ok (decodeCommand c)

/-- What the block runs for a received byte: the `\n` that ends a frame of the shape of R170 is that frame's request
instruction, since the validator works in the step of the `\n` (R153, R178); every other byte is its class. -/
def decodeReceived (st : AssemblerState) (frame : List Byte) (b : Byte) : Instr :=
  if st ≠ .idle ∧ b = Ascii.lf then
    match decodeFrame frame with
    | .ok i => i
    | .error _ => .rxLf
  else decodeByte st b

/-- The bytes of a request frame that its CRC covers (R72, R171): offsets 0 to 5. -/
def Request.covered (r : Request) (op : Opcode) : List Byte :=
  [Ascii.question, r.idHi, r.idLo, r.sep, op.byte, Ascii.pipe]

/-- The 10 bytes of a request frame (R72). -/
def Request.bytes (r : Request) (op : Opcode) : List Byte :=
  r.covered op ++ [r.crc3, r.crc2, r.crc1, r.crc0]

/-- A host command record that uses no field but `op`. -/
def HostCommand.ofOp (op : BitVec 2) : HostCommand :=
  { op := op, id := 0, poll := 0, desc := [], unit := [], value := Value.zero }

/-- The encoder (R70, R72, R80). `\r` and `\n` mean the same with room and with the buffer full; the encoder writes the
first. -/
def encode : Instr → Code
  | .rxStart => .byte .idle Ascii.question
  | .rxDiscard b => .byte .idle b
  | .rxCr => .byte .accumulating Ascii.cr
  | .rxLf => .byte .accumulating Ascii.lf
  | .rxData b => .byte .accumulating b
  | .rxOverflow b => .byte .full b
  | .reqDiscover r => .frame (r.bytes .discover)
  | .reqPoll r => .frame (r.bytes .poll)
  | .hostNop => .command (HostCommand.ofOp 0)
  | .hostConfigure id poll desc unit =>
    .command { HostCommand.ofOp 1 with id := id, poll := poll, desc := desc, unit := unit }
  | .hostSetValue id value => .command { HostCommand.ofOp 2 with id := id, value := value }
  | .hostReserved => .command (HostCommand.ofOp 3)

/-- A row of spec/opcode_table.json as bytes in wire order: for each byte its mask and its match (the table writes an
80-bit row with byte 0 in bits 79 to 72; a host row is the 2 bits of `op`). -/
def tableRow : Instr → List (Byte × Byte)
  | .rxStart => [(0xFF, 0x3F)]
  | .rxDiscard _ => [(0x00, 0x00)]
  | .rxCr => [(0xFF, 0x0D)]
  | .rxLf => [(0xFF, 0x0A)]
  | .rxData _ => [(0x00, 0x00)]
  | .rxOverflow _ => [(0x00, 0x00)]
  | .reqDiscover _ =>
    [(0xFF, 0x3F), (0, 0), (0, 0), (0, 0), (0xFF, 0x44), (0xFF, 0x7C), (0, 0), (0, 0), (0, 0), (0, 0)]
  | .reqPoll _ =>
    [(0xFF, 0x3F), (0, 0), (0, 0), (0, 0), (0xFF, 0x50), (0xFF, 0x7C), (0, 0), (0, 0), (0, 0), (0, 0)]
  | .hostNop => [(0x03, 0x00)]
  | .hostConfigure _ _ _ _ => [(0x03, 0x01)]
  | .hostSetValue _ _ => [(0x03, 0x02)]
  | .hostReserved => [(0x03, 0x03)]

/-- The bytes a `Code` shows to a row of the table: a host command shows its `op`. -/
def Code.tableBytes : Code → List Byte
  | .byte _ b => [b]
  | .frame bs => bs
  | .command c => [c.op.setWidth 8]

/-- The bytes match the row: as many bytes, and each agrees with the row's match under its mask. -/
def matchesRow (bs : List Byte) (row : List (Byte × Byte)) : Bool :=
  bs.length == row.length && (bs.zip row).all fun x => x.1 &&& x.2.1 == x.2.2

/-- The 10 bytes of an 80-bit table word, byte 0 in bits 79 to 72 (the note of the table's `REQ_DISCOVER` row). -/
def frameOfWord (w : Nat) : List Byte :=
  (List.range 10).map fun k => BitVec.ofNat 8 (w >>> (72 - 8 * k))

/-- What a word of the opcode table stands for. An 80-bit word is a request frame. The table numbers its received-byte
rows and its host rows in the same 8 bits: the words 0 to 3, which the host rows fix, are read as host commands; of the
others the two bytes that only `ACCUMULATING` rows fix are read there, and the rest in `IDLE`, the assembler's state
after reset. DESIGN CHOICE (notes/assumptions/5.md). -/
def tableCode (nbits w : Nat) : Option Code :=
  if nbits = 80 then
    if w < 2 ^ 80 then some (.frame (frameOfWord w)) else none
  else if nbits = 8 ∧ w < 256 then
    let b : Byte := BitVec.ofNat 8 w
    if w < 4 then some (.command (HostCommand.ofOp (BitVec.ofNat 2 w)))
    else if b = Ascii.cr ∨ b = Ascii.lf then some (.byte .accumulating b)
    else some (.byte .idle b)
  else none

/-- The instruction the decoder reads from a word of the opcode table. -/
def decodeTableWord (nbits w : Nat) : Option Instr :=
  match tableCode nbits w with
  | some c =>
    match decode c with
    | .ok i => some i
    | .error _ => none
  | none => none

end Sys2Proof
end

