-- ==== Sys2Proof/Machine/Operands.lean ====
section
/-! DEFINITION. How the operands of the instructions are read: the fields of a request frame (spec/30_encoding.md rule
R73), the frame and the state of the assembler (spec/10_state.md rule R24), and the registry's searches
(spec/41_registry.md rules R132 and R137). -/

namespace Sys2Proof.Machine

/-- `id`, 8 bits (R73, R174). -/
def requestId (r : Request) : Byte := hexPair r.idHi r.idLo

/-- `crc_rx` (R73, R172). -/
def requestCrc (r : Request) : Crc := hexQuad r.crc3 r.crc2 r.crc1 r.crc0

/-- `crc_ok` (R73): the received CRC is that of the six bytes through the `'|'` (R171, R173). -/
def requestCrcOk (op : Opcode) (r : Request) : Bool := requestCrc r == crc16Of (r.covered op)

/-- `fa_buf[0..fa_idx)`: the bytes stored for the current frame (R24). -/
def State.frame (s : State) : List Byte := s.faBuf.take s.faIdx

/-- The assembler's state (R24), with R154's and R155's question whether there is room. -/
def State.assembler (s : State) : AssemblerState :=
  if s.faIdx = 0 then .idle else if s.faIdx < s.params.maxReq then .accumulating else .full

/-- `find_slot(id)` (R132): the least index whose slot is free or holds `id`. -/
def findSlot (id : Byte) (slots : List Slot) : Option Nat :=
  slots.findIdx? fun x => x.desc == [] || x.devId == id

/-- The scan of `lookup` from index `i` on (R137). -/
def lookupFrom (id : Byte) (i : Nat) : List Slot → Option (Nat × Slot)
  | [] => none
  | x :: xs => if x.desc = [] then none else if x.devId = id then some (i, x) else lookupFrom id (i + 1) xs

/-- `lookup(id)` (R137): the index found, with its slot; the scan stops at the first free slot. -/
def lookup (id : Byte) (slots : List Slot) : Option (Nat × Slot) := lookupFrom id 0 slots

/-- `device_count` (R40): the number of occupied slots. -/
def deviceCount (slots : List Slot) : Nat := slots.countP fun x => x.desc != []

/-- The operand checks of CONFIGURE (R131), in the order R131 lists them. -/
def configureRefusal (p : Params) (id : Byte) (poll : Nat) (desc unit : List Byte) : Option RefuseReason :=
  if 127 < id.toNat then some .hostIdRange
  else if 2 ^ p.pollW ≤ poll then some .hostPollRange
  else if desc.contains 0 || unit.contains 0 then some .hostNulByte
  else none

end Sys2Proof.Machine
end

