-- ==== Sys2Proof/Machine/Ops.lean ====
section
/-! DEFINITION. The named operations the meanings are made of. The block takes no exception (spec/60_exceptions.md rule
R240); its three substitutes are each one operation here: the silent drop (`State.drop`, `State.finishSilent`), the
refusal mark (`State.refuse`), and the masking of the receive input while a reply is sent with its return
(`State.startReply`, `State.endReply`). -/

namespace Sys2Proof.Machine

/-- The phases R25 calls BUSY. -/
def Phase.busy : Phase → Bool
  | .off => false
  | .listen => false
  | .txTurn => true
  | .txSettle => true
  | .txSync => true
  | .txBody => true
  | .txCrc => true
  | .txCr => true
  | .txLf => true
  | .txDrain => true

/-- The phases in which a `TxWrite` is enabled, given `tx_ready` (R38). -/
def Phase.writing : Phase → Bool
  | .off => false
  | .listen => false
  | .txTurn => false
  | .txSettle => false
  | .txSync => true
  | .txBody => true
  | .txCrc => true
  | .txCr => true
  | .txLf => true
  | .txDrain => false

/-- The host port accepts a command exactly in `OFF` and `LISTEN` (R35). -/
def State.hostReady (s : State) : Bool := s.phase == .off || s.phase == .listen

/-- `rx_ready`: a received byte is accepted exactly in `LISTEN` (R26, R36). -/
def State.rxReady (s : State) : Bool := s.phase == .listen

/-- The outcome of an input whose rule is enabled only where `enabled` holds (R10 `require`): there it has its effect;
elsewhere the block takes no step and stays as it is (a host command waits, R35; a byte is the UART's, R36).
DESIGN CHOICE (notes/assumptions/6.md). -/
def State.takeIf (s : State) (enabled : Bool) (effect : State → State) : Host.Outcome State Fault Refusal :=
  .next (if enabled then effect s else s)

/-- `emit` (R10). -/
def State.emit (s : State) (o : OutLabel) : State := { s with outs := s.outs ++ [o] }

/-- `drop` (R10, R241): the step ends with no output; the tag is only observed. -/
def State.drop (s : State) (t : DropTag) : State := { s with drops := s.drops ++ [t] }

/-- `refuse` (R10, R247): no state changes but the mark; the reason is only observed. The run goes on, with the mark
set: DEDUCED (notes/assumptions/9.md). -/
def State.refuse (s : State) (r : RefuseReason) : State := { s.markRefused with refusals := s.refusals ++ [r] }

/-- `fa_idx <- i`. -/
def State.setFaIdx (s : State) (i : Nat) : State := { s with faIdx := i }

/-- `fa_buf[i] <- b` and `fa_idx <- i + 1` (R150, R154). -/
def State.storeByte (s : State) (i : Nat) (b : Byte) : State :=
  { s with faBuf := s.faBuf.set i b, faIdx := i + 1 }

/-- `de <- d` and `phase <- p`: the three switches of R221, R224 and R226, each with its phase. -/
def State.switchTo (s : State) (d : Direction) (p : Phase) : State := { s with de := d, phase := p }

/-- `phase <- p`. -/
def State.setPhase (s : State) (p : Phase) : State := { s with phase := p }

/-- `slot[k] <- x`. -/
def State.writeSlot (s : State) (k : Nat) (x : Slot) : State := { s with slots := s.slots.set k x }

/-- `pending_clear <- k`. -/
def State.setPendingClear (s : State) (k : Option Nat) : State := { s with pendingClear := k }

/-- `resp <- body`. -/
def State.setResp (s : State) (body : List Byte) : State := { s with resp := body }

/-- The UART takes the configuration (R135, R250). DEDUCED (notes/assumptions/11.md). -/
def State.configureUart (s : State) : State := { s with uart := some s.params.uartCfg }

/-- `do_setup()` (R135), with `DE_INIT` (R226). -/
def State.doSetup (s : State) : State :=
  ((s.markSetup.configureUart).emit (.uartConfigure s.params.uartCfg)).switchTo .rx .listen

/-- `finish_silent(T)` (R178, R179). -/
def State.finishSilent (s : State) (t : DropTag) : State := (s.setFaIdx 0).drop t

/-- `start_reply(body, clr)` (R178), with `DE_TO_TX` (R221); `resp` is the body as the encoder left it in the buffer
(R190 to R192). -/
def State.startReply (s : State) (resp : List Byte) (clr : Option Nat) : State :=
  ((s.setResp resp).setPendingClear clr).switchTo .tx .txTurn

/-- `if pending_clear = k: slot[k].have_value <- 0; pending_clear <- none` (R199). -/
def State.consumePendingClear (s : State) : State :=
  match s.pendingClear with
  | some k => (s.clearHaveValue k).setPendingClear none
  | none => s

/-- The end of a reply (R199), with `DE_TO_RX` (R224): the receive input is armed again. -/
def State.endReply (s : State) : State := (s.consumePendingClear.setFaIdx 0).switchTo .rx .listen

/-- Reset from the `rst` port (R270 to R272), in any phase. The parameters are the machine's; the UART's pins, the
inputs not taken yet and what has been observed are not the block's, and stay. DEDUCED (notes/assumptions/12.md). -/
def State.hardReset (s : State) : State :=
  { State.resetOf s.params with
    txReady := s.txReady, txc := s.txc, inputs := s.inputs, outs := s.outs, drops := s.drops, refusals := s.refusals }

/-- The state with what the environment still offers. -/
def State.withInputs (s : State) (inputs : List Input) : State := { s with inputs := inputs }

end Sys2Proof.Machine
end

