-- ==== Sys2Proof/Machine/Validator.lean ====
section
/-! DEFINITION. The request validator and its handlers, and the meanings of the request frames
(spec/43_request_validator.md). A request frame is an instruction of its own, run in the step of its `\n`: DESIGN CHOICE
(notes/assumptions/13.md). -/

namespace Sys2Proof.Machine

/-- The discovery handler (R176): answered whether or not a value is pending. -/
def State.discovery (s : State) (id : Byte) : State :=
  match lookup id s.slots with
  | none => s.finishSilent .unknownId
  | some (_, x) => s.startReply (encodeDiscovery s.params.maxResp x) none

/-- The poll handler (R177). -/
def State.poll (s : State) (id : Byte) : State :=
  match lookup id s.slots with
  | none => s.finishSilent .unknownId
  | some (k, x) =>
    if x.haveValue then s.startReply (encodePoll s.params.maxResp x) (some k)
    else s.finishSilent .noPendingValue

/-- Steps 2 to 6 of validation on a frame of the right shape (R171 to R175). -/
def State.processRequest (s : State) (op : Opcode) (r : Request) : State :=
  if requestCrcOk op r then
    match op with
    | .discover => s.discovery (requestId r)
    | .poll => s.poll (requestId r)
  else s.finishSilent .crcMismatch

/-- `end_of_frame(b, len)` (R178). -/
def State.endOfFrame (s : State) (bs : List Byte) : State :=
  match splitFrame bs with
  | .error _ => s.finishSilent .frameMalformed
  | .ok (op, r) => s.processRequest op r

/-- `REQ_DISCOVER` (R176): the end of a frame with opcode `'D'` and the free bytes `r`. -/
def execReqDiscover (r : Request) (s : State) : Host.Outcome State Fault Refusal :=
  s.takeIf (s.rxReady && s.faIdx != 0) fun s => s.processRequest .discover r

/-- `REQ_POLL` (R177): the end of a frame with opcode `'P'` and the free bytes `r`. -/
def execReqPoll (r : Request) (s : State) : Host.Outcome State Fault Refusal :=
  s.takeIf (s.rxReady && s.faIdx != 0) fun s => s.processRequest .poll r

end Sys2Proof.Machine
end

