-- ==== Sys2Proof/Machine/FrameAssembler.lean ====
section
/-! DEFINITION. The meanings of the received-byte classes (spec/42_frame_assembler.md). -/

namespace Sys2Proof.Machine

/-- `RX_START` (R150). -/
def execRxStart (s : State) : Host.Outcome State Fault Refusal :=
  s.takeIf (s.rxReady && s.faIdx == 0) fun s => s.storeByte 0 Ascii.question

/-- `RX_DISCARD` (R151): no state change. -/
def execRxDiscard (_b : Byte) (s : State) : Host.Outcome State Fault Refusal := .next s

/-- `RX_CR` (R152): no state change. -/
def execRxCr (s : State) : Host.Outcome State Fault Refusal := .next s

/-- `RX_LF` (R153): the frame ends, and the validator works in this same step. -/
def execRxLf (s : State) : Host.Outcome State Fault Refusal :=
  s.takeIf (s.rxReady && s.faIdx != 0) fun s => s.endOfFrame s.frame

/-- `RX_DATA` with room (R154). -/
def execRxData (b : Byte) (s : State) : Host.Outcome State Fault Refusal :=
  s.takeIf (s.rxReady && s.faIdx != 0 && decide (s.faIdx < s.params.maxReq) && storable b) fun s =>
    s.storeByte s.faIdx b

/-- `RX_DATA` with the buffer full (R155): the byte is discarded and the frame abandoned. -/
def execRxOverflow (b : Byte) (s : State) : Host.Outcome State Fault Refusal :=
  s.takeIf (s.rxReady && s.faIdx != 0 && decide (s.params.maxReq ≤ s.faIdx) && storable b) fun s =>
    s.finishSilent .frameOverflow

end Sys2Proof.Machine
end

