-- ==== Sys2Proof/Machine/Registry.lean ====
section
/-! DEFINITION. The meanings of the host commands (spec/41_registry.md). -/

namespace Sys2Proof.Machine

/-- CONFIGURE's slot write sets all six fields (R133). -/
def configuredSlot (id : Byte) (poll : Nat) (desc unit : List Byte) : Slot :=
  { desc := desc, devId := id, poll := poll, unit := unit, value := Value.zero, haveValue := false }

/-- CONFIGURE once accepted by the port (R130). -/
def State.configure (s : State) (id : Byte) (poll : Nat) (desc unit : List Byte) : State :=
  match configureRefusal s.params id poll desc unit with
  | some r => s.refuse r
  | none =>
    if desc = [] then s.drop .configNoDesc
    else
      match findSlot id s.slots with
      | none => s.drop .registryFull
      | some k =>
        let s := s.writeSlot k (configuredSlot id poll desc unit)
        if s.setupDone then s else s.doSetup

/-- SET_VALUE once accepted by the port (R136). -/
def State.setValue (s : State) (id : Byte) (v : Value) : State :=
  match lookup id s.slots with
  | none => s.drop .unknownIdSet
  | some (k, x) => s.writeSlot k (x.withValue v)

/-- `HOST_NOP` (R140): no state change. -/
def execHostNop (s : State) : Host.Outcome State Fault Refusal := .next s

/-- `HOST_CONFIGURE` (R130). -/
def execHostConfigure (id : Byte) (poll : Nat) (desc unit : List Byte) (s : State) :
    Host.Outcome State Fault Refusal :=
  s.takeIf s.hostReady fun s => s.configure id poll desc unit

/-- `HOST_SET_VALUE` (R136). -/
def execHostSetValue (id : Byte) (v : Value) (s : State) : Host.Outcome State Fault Refusal :=
  s.takeIf s.hostReady fun s => s.setValue id v

/-- `HOST_RESERVED` (R80, R247): the model's refusal, which sets the mark and changes nothing else. -/
def execHostReserved (s : State) : Host.Outcome State Fault Refusal :=
  s.takeIf s.hostReady fun s => s.refuse .hostReservedOp

end Sys2Proof.Machine
end

