-- ==== Sys2Proof/Machine/Dispatch.lean ====
section
/-! DEFINITION. The meaning of every instruction, one arm per constructor of `Instr`. -/

namespace Sys2Proof.Machine

def exec (i : Instr) (s : State) : Host.Outcome State Fault Refusal :=
  match i with
  | .rxStart => Sys2Proof.Machine.execRxStart s
  | .rxDiscard b => Sys2Proof.Machine.execRxDiscard b s
  | .rxCr => Sys2Proof.Machine.execRxCr s
  | .rxLf => Sys2Proof.Machine.execRxLf s
  | .rxData b => Sys2Proof.Machine.execRxData b s
  | .rxOverflow b => Sys2Proof.Machine.execRxOverflow b s
  | .reqDiscover r => Sys2Proof.Machine.execReqDiscover r s
  | .reqPoll r => Sys2Proof.Machine.execReqPoll r s
  | .hostNop => Sys2Proof.Machine.execHostNop s
  | .hostConfigure id poll desc unit => Sys2Proof.Machine.execHostConfigure id poll desc unit s
  | .hostSetValue id v => Sys2Proof.Machine.execHostSetValue id v s
  | .hostReserved => Sys2Proof.Machine.execHostReserved s

end Sys2Proof.Machine
end

