-- ==== Sys2Proof/Machine/Fetch.lean ====
section
/-! DEFINITION. What the block takes next. It fetches no instructions (spec/10_state.md rule R21): a step is taken on one
input (spec/00_scope.md rule R11), the first of those the environment offers whose label is enabled (R38). An input that
is not enabled waits: a host command until the port is ready (R35, R280), a byte with the UART (R36, R39). A change of the
UART's pins is no step of its own (R282): the step sees the changes that stand before the input it takes. The
environment's choices are the content and the order of `State.inputs` (R39, R245). DESIGN CHOICE
(notes/assumptions/4.md, notes/assumptions/10.md). -/

namespace Sys2Proof.Machine

/-- Whether a label of the environment is enabled (R38); reset always is (R271). -/
def State.labelEnabled (s : State) (l : Label) : Bool :=
  match l with
  | .turnElapsed => s.phase == .txTurn
  | .settleElapsed => s.phase == .txSettle
  | .txWrite => s.phase.writing && s.txReady
  | .txComplete => s.phase == .txDrain && s.txc
  | .rst => true

/-- Whether the block takes an input in this state (R38). The UART's pins are free to change at any time (R32): DESIGN
CHOICE (notes/assumptions/10.md). -/
def State.enabled (s : State) (x : Input) : Bool :=
  match x with
  | .host _ => s.hostReady
  | .rx _ => s.rxReady
  | .label l => s.labelEnabled l
  | .pin _ => true

/-- The change of a pin that an input is, if it is one. -/
def Input.pinChange (x : Input) : Option Pin :=
  match x with
  | .host _ => none
  | .rx _ => none
  | .label _ => none
  | .pin p => some p

/-- What `State.scan` finds: the state with the pins as the step sees them, the input the step takes, and the inputs
that stay offered. -/
structure Scanned where
  state : State
  taken : Option Input
  rest : List Input
deriving DecidableEq, Repr

/-- Goes through the inputs in their order: the pins follow the UART's changes, an input that is not enabled stays
offered, and the first one that is enabled is taken. -/
def State.scan (s : State) : List Input → Scanned
  | [] => { state := s, taken := none, rest := [] }
  | x :: xs =>
    match x.pinChange with
    | some p => (s.drivePin p).scan xs
    | none =>
      if s.enabled x then { state := s, taken := some x, rest := xs }
      else { s.scan xs with rest := x :: (s.scan xs).rest }

/-- What the next step is: nothing offered can be taken; an instruction; or a label of the environment. -/
inductive Fetched where
  | wait (s : State)
  | instr (i : Instr) (s : State)
  | label (l : Label) (s : State)
deriving DecidableEq, Repr

/-- The next step, with the pins as it sees them and what it takes removed from what is offered. -/
def State.fetch (s : State) : Fetched :=
  let found := s.scan s.inputs
  let t := found.state.withInputs found.rest
  match found.taken with
  | none => .wait t
  | some (.host c) => .instr (decodeCommand c) t
  | some (.rx b) => .instr (decodeReceived t.assembler t.frame b) t
  | some (.label l) => .label l t
  | some (.pin _) => .wait t

/-- `s` with an input put first among those offered. -/
def State.offer (s : State) (x : Input) : State := s.withInputs (x :: s.inputs)

/-- `s` with `bs` as the frame under assembly, in `LISTEN`. -/
def State.holding (s : State) (bs : List Byte) : State :=
  { s with phase := .listen, faBuf := bs ++ s.faBuf.drop bs.length, faIdx := bs.length }

/-- A word of the opcode table placed where the next step takes its input: a host command on the host port; a byte on
the receive port, with the assembler in the state its row names; a request frame in the buffer, its `\n` on the receive
port. What this changes besides is only what those inputs need: the phase, and for a byte or a frame the assembler.
DESIGN CHOICE (notes/assumptions/7.md). -/
def State.placeWord (s : State) (nbits w : Nat) : State :=
  match tableCode nbits w with
  | none => s
  | some (.command c) => (if s.hostReady then s else s.setPhase .listen).offer (.host c)
  | some (.byte .idle b) => (s.holding []).offer (.rx b)
  | some (.byte .accumulating b) => (s.holding [Ascii.question]).offer (.rx b)
  | some (.byte .full b) => (s.holding [Ascii.question]).offer (.rx b)
  | some (.frame bs) => (s.holding bs).offer (.rx Ascii.lf)

end Sys2Proof.Machine
end

