-- ==== Sys2Proof/Machine/Transmitter.lean ====
section
/-! DEFINITION. The steps that no instruction starts: the transmitter (spec/44_response_encoder.md rules R195 to R200),
the two waits of the direction controller (spec/45_direction_controller.md rules R222, R223), the end of a reply (R199)
and reset (spec/70_reset_and_hazards.md rule R271). -/

namespace Sys2Proof.Machine

/-- The byte the block offers the UART in a write phase (R195 to R198); none where `tx_pos` is outside R28's bounds. -/
def State.txByte (s : State) : Option Byte :=
  match s.phase with
  | .txSync => some Ascii.sync
  | .txBody => s.resp[s.txPos]?
  | .txCrc => (hex4 s.crcAcc)[s.txPos]?
  | .txCr => some Ascii.cr
  | .txLf => some Ascii.lf
  | .off => none
  | .listen => none
  | .txTurn => none
  | .txSettle => none
  | .txDrain => none

/-- `crc_acc <- c` and `tx_pos <- i`. -/
def State.setCursor (s : State) (c : Crc) (i : Nat) : State := { s with crcAcc := c, txPos := i }

/-- What writing the byte `b` changes of the sequencer (R195 to R198). -/
def State.advance (s : State) (b : Byte) : State :=
  match s.phase with
  | .txSync => (s.setCursor 0 0).setPhase .txBody
  | .txBody =>
    if s.txPos + 1 = s.resp.length then (s.setCursor (crc16Step b s.crcAcc) 0).setPhase .txCrc
    else s.setCursor (crc16Step b s.crcAcc) (s.txPos + 1)
  | .txCrc => if s.txPos = 3 then s.setPhase .txCr else s.setCursor s.crcAcc (s.txPos + 1)
  | .txCr => s.setPhase .txLf
  | .txLf => s.setPhase .txDrain
  | .off => s
  | .listen => s
  | .txTurn => s
  | .txSettle => s
  | .txDrain => s

/-- One `TxWrite(b)`: the byte goes to the UART and `txc` is cleared in the same step (R200). -/
def State.transmit (s : State) : Host.Outcome State Fault Refusal :=
  match s.txByte with
  | some b => .next (((s.advance b).emit (.txWrite b s.de)).clearTxc)
  | none => .fault .txPosRange

/-- The steps the environment's labels start, where they are enabled (R38). -/
def State.onLabel (l : Label) (s : State) : Host.Outcome State Fault Refusal :=
  match l with
  | .turnElapsed => .next (s.setPhase .txSettle)
  | .settleElapsed => .next (s.setPhase .txSync)
  | .txWrite => s.transmit
  | .txComplete => .next s.endReply
  | .rst => .next s.hardReset

end Sys2Proof.Machine
end

