-- ==== Sys2Proof/Machine/Ports.lean ====
section
/-! DEFINITION. The block's output ports (spec/10_state.md rules R35 to R37, spec/45_direction_controller.md rule R220)
as functions of the state. `hostReady` and `rxReady` stand in Ops.lean. The one-step pulses `txc_clr` and
`uart_cfg_valid` are what `State.transmit` and `State.doSetup` do in their step. -/

namespace Sys2Proof.Machine

/-- `tx_valid`: a byte is offered to the UART. -/
def State.txValid (s : State) : Bool := s.txByte.isSome

/-- `tx_data`: the byte offered, if any. -/
def State.txData (s : State) : Option Byte := s.txByte

/-- `de_oe`: 0 while `de = UNDRIVEN` (R37). -/
def Direction.deOe : Direction → Bool
  | .undriven => false
  | .rx => true
  | .tx => true

/-- The `de` port: 1 = transmit, 0 = receive, meaningful only when `de_oe = 1` (R37). -/
def Direction.dePin : Direction → Option Bool
  | .undriven => none
  | .rx => some false
  | .tx => some true

end Sys2Proof.Machine
end

