-- ==== Sys2Proof/Machine/Step.lean ====
section
/-! DEFINITION. One step of the block (spec/00_scope.md rule R11, spec/10_state.md rule R38). Where nothing the
environment offers is enabled the block waits, and only the UART's pins can have changed (R246). -/

namespace Sys2Proof.Machine

/-- One atomic step. -/
def step (s : State) : Host.Outcome State Fault Refusal :=
  match s.fetch with
  | .wait s' => .next s'
  | .instr i s' => exec i s'
  | .label l s' => State.onLabel l s'

/-- `s` with the instruction of a table word where the next step takes it. -/
def State.withFetchWord (s : State) (nbits w : Nat) : State := s.placeWord nbits w

end Sys2Proof.Machine
end

