-- ==== Sys2Proof/Safety.lean ====
section
/-! DEFINITION. What counts as a safe run: the legal states of the block (`State.Inv`), and the terms the claims about
runs use. -/

namespace Sys2Proof.Machine

/-- The phase, `de` and `setup_done` agree: `de = TX` exactly in the BUSY phases, `RX` exactly in `LISTEN`, `UNDRIVEN`
exactly in `OFF` (R25, R227), and `setup_done` is 0 exactly in `OFF` (R23, R135). -/
abbrev State.directionLegal (s : State) : Prop :=
  (s.de = .tx ↔ s.phase.busy = true) ∧ (s.de = .rx ↔ s.phase = .listen) ∧ (s.setupDone = true ↔ s.phase ≠ .off)

/-- R138 (a): the occupied slots form a prefix. -/
abbrev occupiedFirst (slots : List Slot) : Prop :=
  ∀ x ∈ slots.dropWhile (fun x => x.desc != []), x.desc = []

/-- R138 (b): no two occupied slots have the same id. -/
abbrev idsDistinct (slots : List Slot) : Prop :=
  ((slots.filter fun x => x.desc != []).map fun x => x.devId).Nodup

/-- R138 (c), with the ranges R131 checks: an occupied slot's id is at most 127, its poll interval fits `POLL_W` bits,
and its texts hold no 0x00. -/
abbrev slotLegal (p : Params) (x : Slot) : Prop :=
  x.desc ≠ [] → x.devId.toNat ≤ 127 ∧ x.poll < 2 ^ p.pollW ∧ 0 ∉ x.desc ∧ 0 ∉ x.unit

/-- The registry invariants of R138, with its size (R22). -/
abbrev State.registryLegal (s : State) : Prop :=
  s.slots.length = s.params.nSlots ∧ occupiedFirst s.slots ∧ idsDistinct s.slots ∧
    (∀ x ∈ s.slots, slotLegal s.params x) ∧ (s.setupDone = false → ∀ x ∈ s.slots, x.desc = [])

/-- The request line buffer (R24, R156): it has `MAX_REQ` bytes, `fa_idx` is within it, and the bytes stored of a frame
begin with `'?'` and hold no `\r` and no `\n`. -/
abbrev State.assemblerLegal (s : State) : Prop :=
  s.faBuf.length = s.params.maxReq ∧ s.faIdx ≤ s.params.maxReq ∧ (s.phase = .off → s.faIdx = 0) ∧
    (s.faIdx ≠ 0 → s.frame.head? = some Ascii.question) ∧ (∀ b ∈ s.frame, storable b = true)

/-- The transmit side (R27 to R30): `resp` fits its buffer and holds no `'?'` (R202); while a reply is sent it is not
empty, `tx_pos` is in R28's bounds and `crc_acc` is the CRC of the bytes written so far (R196); a pending clear stands
only while a poll reply is sent, and names an occupied slot with a value pending. -/
abbrev State.transmitLegal (s : State) : Prop :=
  s.resp.length ≤ s.params.maxResp ∧ Ascii.question ∉ s.resp ∧ (s.phase.busy = true → s.resp ≠ []) ∧
    (s.phase = .txBody → s.txPos < s.resp.length ∧ s.crcAcc = crc16Of (s.resp.take s.txPos)) ∧
    (s.phase = .txCrc → s.txPos < 4 ∧ s.crcAcc = crc16Of s.resp) ∧
    s.pendingClear.all (fun k => s.phase.busy && s.slots[k]?.any fun x => x.desc != [] && x.haveValue) = true

/-- The legal states: every state of a run from reset is one, for every choice of the environment. -/
abbrev State.Inv (s : State) : Prop :=
  Config.paramsLegal s.params ∧ s.directionLegal ∧ s.registryLegal ∧ s.assemblerLegal ∧ s.transmitLegal

/-- The bytes written to the UART so far, oldest first (R40). -/
def wireBytes : List OutLabel → List Byte
  | [] => []
  | .txWrite b _ :: os => b :: wireBytes os
  | .uartConfigure _ :: os => wireBytes os

/-- Every byte written so far was written with the transceiver in transmit mode (R227). -/
def writtenInTransmit : List OutLabel → Bool
  | [] => true
  | .txWrite _ d :: os => d == .tx && writtenInTransmit os
  | .uartConfigure _ :: os => writtenInTransmit os

/-- The inputs with which the environment carries one reply of `n` body bytes to its end: both delays expire, the UART
takes `n + 7` bytes, raises `txc` when it has sent them (R32), and the reply is complete (R201, R282). -/
def replyInputs (n : Nat) : List Input :=
  [.label .turnElapsed, .label .settleElapsed] ++ List.replicate (n + 7) (.label .txWrite) ++
    [.pin .txcRise, .label .txComplete]

/-- The bytes of a request for `id` as a master writes it (R81, R106): lower-case digits, `':'`, and the CRC of the six
bytes before it. -/
def requestFor (op : Opcode) (id : Byte) : List Byte :=
  let covered := [Ascii.question] ++ hex2 id ++ [Ascii.colon, op.byte, Ascii.pipe]
  covered ++ hex4 (crc16Of covered)

end Sys2Proof.Machine
end

