-- ==== Sys2Proof/Certificates/Slice0/Obligations.lean ====
section
/-! DEFINITION. The statements for the provers. Each docstring names the rule of spec/ it formalises; OBLIGATIONS.json
lists them. An equation `exec i s = .next { s with … }` says the result and the frame at once: every field not named is
unchanged (the block has no memory besides these fields, R50, R51). By R33 a claim about the hardware reads a statement
with `refused = 0`; none needs it as a premise. -/

open Sys2Proof Sys2Proof.Machine

-- The codec and the CRC unit.

/-- R100: 256 entries, the first two the source's, and every one made by the generator. -/
def Obligations.CrcTableIsTheGeneratedTable : Prop :=
  crcTable.length = 256 ∧ crcTable[0]? = some 0x0000 ∧ crcTable[1]? = some 0xc0c1 ∧
    ∀ i : Fin 256, crcTable[i.val]? = some (crcShifts 8 (BitVec.ofNat 16 i.val))

/-- R101: the table step equals the bitwise form `c = crc ^ b`, shifted 8 times, on every pair. -/
def Obligations.CrcStepEqualsBitwiseForm : Prop :=
  ∀ (b : Byte) (crc : Crc), crc16Step b crc = crcShifts 8 (crc ^^^ b.setWidth 16)

/-- R103: the CRC of a text continues from the CRC of its beginning; a leading 0x00 is not seen; the empty text has
CRC 0. -/
def Obligations.CrcContinuesOverAppend : Prop :=
  crc16Of [] = 0 ∧
    (∀ xs ys : List Byte, crc16Of (xs ++ ys) = ys.foldl (fun c b => crc16Step b c) (crc16Of xs)) ∧
    ∀ ys : List Byte, crc16Of (0x00 :: ys) = crc16Of ys

/-- R104: the value of every byte as a hex digit, 0 for a byte that is none. R105: the digit of every 4-bit value, lower
case from 10 on. R106: the two digits of a byte and the four of a CRC, high nibble first. R111's hex round trip, for a
byte and for the four digits of a CRC. -/
def Obligations.HexDigitsDecodeAndRoundTrip : Prop :=
  (∀ c : Byte, (hexValue c).toNat =
    if 0x30 ≤ c.toNat ∧ c.toNat ≤ 0x39 then c.toNat - 0x30
    else if 0x41 ≤ c.toNat ∧ c.toNat ≤ 0x46 then c.toNat - 0x41 + 10
    else if 0x61 ≤ c.toNat ∧ c.toNat ≤ 0x66 then c.toNat - 0x61 + 10
    else 0) ∧
  (∀ v : Nibble, (hexDigit v).toNat = if v.toNat ≤ 9 then 0x30 + v.toNat else 0x61 + (v.toNat - 10)) ∧
  (∀ b : Byte, hex2 b = [hexDigit (BitVec.ofNat 4 (b.toNat / 16)), hexDigit (BitVec.ofNat 4 (b.toNat % 16))]) ∧
  (∀ x : Crc, hex4 x =
    [hexDigit (BitVec.ofNat 4 (x.toNat / 4096)), hexDigit (BitVec.ofNat 4 (x.toNat / 256 % 16)),
      hexDigit (BitVec.ofNat 4 (x.toNat / 16 % 16)), hexDigit (BitVec.ofNat 4 (x.toNat % 16))]) ∧
  (∀ b : Byte, hexPair (hexDigit (b.extractLsb' 4 4)) (hexDigit (b.extractLsb' 0 4)) = b) ∧
    ∀ x : Crc, ∀ d3 d2 d1 d0 : Byte, hex4 x = [d3, d2, d1, d0] → hexQuad d3 d2 d1 d0 = x

/-- R111, escaping round trip: unquoting the quoted encoding gives the text back, whatever its bytes. -/
def Obligations.UnquoteUndoesQuote : Prop := ∀ bs : List Byte, unquote (quote bs) = bs

/-- R79, R107, R108: a byte from 0x20 to 0x7E other than the four delimiters passes unchanged, and every other byte becomes
a backslash and its two hex digits; a list is quoted byte by byte, in order. So quoted text holds only printable ASCII,
and neither `'!'` nor `'?'` nor `'|'`. -/
def Obligations.QuotedTextHidesDelimiters : Prop :=
  (∀ b : Byte, quote [b] =
    if 0x20 ≤ b.toNat ∧ b.toNat < 0x7F ∧ b ≠ 0x21 ∧ b ≠ 0x3F ∧ b ≠ 0x7C ∧ b ≠ 0x5C then [b] else 0x5C :: hex2 b) ∧
  (quote [] = [] ∧ ∀ xs ys : List Byte, quote (xs ++ ys) = quote xs ++ quote ys) ∧
  ∀ (bs : List Byte) (b : Byte), b ∈ quote bs →
    0x20 ≤ b.toNat ∧ b.toNat < 0x7F ∧ b ≠ Ascii.bang ∧ b ≠ Ascii.question ∧ b ≠ Ascii.pipe

/-- R110: the decimal text of a natural number is digits only, reads back as the number, most significant digit first,
and has no leading zero; the text of 0 is `"0"`. -/
def Obligations.DecimalTextReadsBack : Prop :=
  dec 0 = [0x30] ∧
    ∀ n : Nat,
      (∀ b ∈ dec n, 0x30 ≤ b.toNat ∧ b.toNat ≤ 0x39) ∧
        (dec n).foldl (fun v b => 10 * v + (b.toNat - 0x30)) 0 = n ∧
        (n ≠ 0 → (dec n).head? ≠ some 0x30)

/-- R194: P1, P2 and P3. P3 for the number `micros / 1000000`: a minus sign exactly for a negative number, the integer
part's decimal text, a dot, and exactly six digits that read as the fraction. That a value is `decimal` when it is such a
number is the model's choice (notes/assumptions/3.md). -/
def Obligations.RenderedValueHasSixFractionDigits : Prop :=
  render6 Value.zero = [0x30, 0x2E, 0x30, 0x30, 0x30, 0x30, 0x30, 0x30] ∧
    render6 (.decimal 23500000) = [0x32, 0x33, 0x2E, 0x35, 0x30, 0x30, 0x30, 0x30, 0x30] ∧
    ∀ micros : Int, ∃ frac : List Byte,
      render6 (.decimal micros) =
          (if micros < 0 then [0x2D] else []) ++ dec (micros.natAbs / 1000000) ++ [0x2E] ++ frac ∧
        frac.length = 6 ∧ (∀ b ∈ frac, 0x30 ≤ b.toNat ∧ b.toNat ≤ 0x39) ∧
        frac.foldl (fun v b => 10 * v + (b.toNat - 0x30)) 0 = micros.natAbs % 1000000

-- Decoding and encoding.

/-- R70, R80: the class of a received byte in each state of the assembler, and the instruction of a host command by its
op, with the fields that op uses as its operands. -/
def Obligations.InputsDecodeByTheirClassAndOp : Prop :=
  (∀ b : Byte,
    decode (.byte .idle b) = .ok (if b = 0x3F then .rxStart else .rxDiscard b) ∧
      decode (.byte .accumulating b) =
        .ok (if b = 0x0D then .rxCr else if b = 0x0A then .rxLf else .rxData b) ∧
      decode (.byte .full b) =
        .ok (if b = 0x0D then .rxCr else if b = 0x0A then .rxLf else .rxOverflow b)) ∧
  ∀ c : HostCommand,
    (c.op = 0#2 → decode (.command c) = .ok .hostNop) ∧
      (c.op = 1#2 → decode (.command c) = .ok (.hostConfigure c.id c.poll c.desc c.unit)) ∧
      (c.op = 2#2 → decode (.command c) = .ok (.hostSetValue c.id c.value)) ∧
      (c.op = 3#2 → decode (.command c) = .ok .hostReserved)

/-- Words written out from the encodings of R70, R74 and R80 decode to the instructions they stand for. Which of the
table's 8-bit rows a word is read as is the model's choice (notes/assumptions/5.md). -/
def Obligations.EncodingsOfTheSpecDecode : Prop :=
  decodeTableWord 8 0x3F = some .rxStart ∧ decodeTableWord 8 0x0D = some .rxCr ∧
    decodeTableWord 8 0x0A = some .rxLf ∧ decodeTableWord 8 0x78 = some (.rxDiscard 0x78) ∧
    decodeTableWord 8 0 = some .hostNop ∧ decodeTableWord 8 3 = some .hostReserved ∧
    decodeTableWord 80 0x3F30393A447C37623562 =
      some (.reqDiscover { idHi := 0x30, idLo := 0x39, sep := 0x3A, crc3 := 0x37, crc2 := 0x62, crc1 := 0x35, crc0 := 0x62 }) ∧
    decodeTableWord 80 0x3F30393A507C37623534 =
      some (.reqPoll { idHi := 0x30, idLo := 0x39, sep := 0x3A, crc3 := 0x37, crc2 := 0x62, crc1 := 0x35, crc0 := 0x34 })

/-- R70, R72, R80: decoding the encoding of a well-formed instruction gives it back, with every operand. -/
def Obligations.DecodeUndoesEncode : Prop :=
  ∀ i : Instr, i.wellFormed = true → decode (encode i) = .ok i

/-- R72, R170: a frame decodes to an instruction exactly when it is that instruction's 10 bytes, so a frame has one
meaning and no byte of it is dropped; and a well-formed frame holds no `\r` and no `\n`. -/
def Obligations.FramesDecodeOnlyToThemselves : Prop :=
  (∀ (bs : List Byte) (i : Instr), decode (.frame bs) = .ok i ↔
      ∃ (op : Opcode) (r : Request), i = requestInstr op r ∧ bs = r.bytes op) ∧
    ∀ (op : Opcode) (r : Request), (requestInstr op r).wellFormed = true ↔ ∀ b ∈ r.bytes op, storable b = true

/-- The instructions the step fetches are well formed, in every legal state. -/
def Obligations.FetchedInstructionsAreWellFormed : Prop :=
  ∀ (s s' : State) (i : Instr), s.Inv → s.fetch = .instr i s' → i.wellFormed = true

-- The received bytes.

/-- R150: `'?'` in `IDLE` is stored as the first byte of a frame; with `MAX_REQ` at least 1 it always fits. -/
def Obligations.StartMarkerBeginsAFrame : Prop :=
  ∀ s : State, s.phase = .listen → s.faIdx = 0 →
    ∃ t, exec .rxStart s = .next t ∧ t = { s with faBuf := s.faBuf.set 0 0x3F, faIdx := 1 } ∧
      (s.faBuf.length = s.params.maxReq → 1 ≤ s.params.maxReq → t.frame = [0x3F])

/-- R140, R151, R152: NOP, a byte discarded in `IDLE` and a `\r` inside a frame change nothing and produce nothing. That
`exec` answers so in every state, also where those rules enable no step, is the model's choice
(notes/assumptions/6.md). -/
def Obligations.InputsWithoutEffectChangeNothing : Prop :=
  ∀ (s : State) (b : Byte),
    exec .hostNop s = .next s ∧ exec (.rxDiscard b) s = .next s ∧ exec .rxCr s = .next s

/-- R154: a data byte is stored behind the bytes of the frame. -/
def Obligations.DataByteIsAppended : Prop :=
  ∀ (s : State) (b : Byte), s.phase = .listen → 0 < s.faIdx → s.faIdx < s.params.maxReq → b ≠ 0x0D → b ≠ 0x0A →
    ∃ t, exec (.rxData b) s = .next t ∧ t = { s with faBuf := s.faBuf.set s.faIdx b, faIdx := s.faIdx + 1 } ∧
      (s.faBuf.length = s.params.maxReq → t.frame = s.frame ++ [b])

/-- R155: a data byte with the buffer full abandons the frame, and is itself discarded. -/
def Obligations.OverlongFrameIsAbandoned : Prop :=
  ∀ (s : State) (b : Byte), s.phase = .listen → 0 < s.faIdx → s.faIdx = s.params.maxReq → b ≠ 0x0D → b ≠ 0x0A →
    exec (.rxOverflow b) s = .next { s with faIdx := 0, drops := s.drops ++ [.frameOverflow] }

/-- R153, R170, R179: a `\n` that ends a frame of the wrong shape drops it silently. -/
def Obligations.MalformedFrameIsDropped : Prop :=
  ∀ s : State, s.phase = .listen → 0 < s.faIdx →
    (¬ ∃ (op : Opcode) (r : Request), s.frame = r.bytes op) →
    exec .rxLf s = .next { s with faIdx := 0, drops := s.drops ++ [.frameMalformed] }

/-- R153, R178: the `\n` that ends a frame of the right shape runs the validator on it in the same step, so it does what
that frame's request instruction does; and this is the step taken when the `\n` is received. -/
def Obligations.LineEndRunsTheValidator : Prop :=
  ∀ (s : State) (op : Opcode) (r : Request), s.phase = .listen → 0 < s.faIdx → s.frame = r.bytes op →
    exec .rxLf s = exec (requestInstr op r) s ∧ exec .rxLf s = .next (s.processRequest op r) ∧
      ∀ rest : List Input, s.inputs = .rx 0x0A :: rest →
        step s = exec (requestInstr op r) { s with inputs := rest }

/-- R71, R156: the bytes after a `'?'` assemble into one frame, with every `\r` left out, as long as they fit. -/
def Obligations.ReceivedBytesAssembleIntoTheFrame : Prop :=
  ∀ (s : State) (bs : List Byte) (rest : List Input),
    s.phase = .listen → s.faIdx = 0 → s.faBuf.length = s.params.maxReq → 0x0A ∉ bs →
    (bs.filter fun b => b != 0x0D).length + 1 ≤ s.params.maxReq →
    s.inputs = (0x3F :: bs).map Input.rx ++ rest →
    ∃ t, core.run (bs.length + 1) s = .next t ∧
      t.frame = 0x3F :: bs.filter (fun b => b != 0x0D) ∧
      t.faIdx = (bs.filter fun b => b != 0x0D).length + 1 ∧
      t = { s with faBuf := t.faBuf, faIdx := t.faIdx, inputs := rest }

-- Requests.

/-- R76, R176, R178, R190: a discovery request with the right CRC for a configured id starts the reply whose body is the
discovery text cut to the buffer; `have_value` is neither read nor changed. -/
def Obligations.DiscoveryStartsItsReply : Prop :=
  ∀ (s : State) (r : Request) (k : Nat) (x : Slot), s.phase = .listen → 0 < s.faIdx →
    requestCrc r = crc16Of (r.covered .discover) → lookup (requestId r) s.slots = some (k, x) →
    exec (.reqDiscover r) s =
      .next { s with resp := (bodyDiscovery x).take s.params.maxResp, pendingClear := none, de := .tx, phase := .txTurn }

/-- R77, R177, R178, R190: a poll request with the right CRC for a configured id with a value pending starts the reply
whose body is the poll text cut to the buffer, and records the slot whose value it delivers. -/
def Obligations.PollStartsItsReply : Prop :=
  ∀ (s : State) (r : Request) (k : Nat) (x : Slot), s.phase = .listen → 0 < s.faIdx →
    requestCrc r = crc16Of (r.covered .poll) → lookup (requestId r) s.slots = some (k, x) → x.haveValue = true →
    exec (.reqPoll r) s =
      .next { s with resp := (bodyPoll x).take s.params.maxResp, pendingClear := some k, de := .tx, phase := .txTurn }

/-- R173, R175 to R177, R179: the three silent rejections of a request of the right shape. -/
def Obligations.UnanswerableRequestIsDropped : Prop :=
  ∀ (s : State) (r : Request), s.phase = .listen → 0 < s.faIdx →
    (requestCrc r ≠ crc16Of (r.covered .discover) →
      exec (.reqDiscover r) s = .next { s with faIdx := 0, drops := s.drops ++ [.crcMismatch] }) ∧
    (requestCrc r ≠ crc16Of (r.covered .poll) →
      exec (.reqPoll r) s = .next { s with faIdx := 0, drops := s.drops ++ [.crcMismatch] }) ∧
    (requestCrc r = crc16Of (r.covered .discover) → lookup (requestId r) s.slots = none →
      exec (.reqDiscover r) s = .next { s with faIdx := 0, drops := s.drops ++ [.unknownId] }) ∧
    (requestCrc r = crc16Of (r.covered .poll) → lookup (requestId r) s.slots = none →
      exec (.reqPoll r) s = .next { s with faIdx := 0, drops := s.drops ++ [.unknownId] }) ∧
    (requestCrc r = crc16Of (r.covered .poll) →
      (∃ k x, lookup (requestId r) s.slots = some (k, x) ∧ x.haveValue = false) →
      exec (.reqPoll r) s = .next { s with faIdx := 0, drops := s.drops ++ [.noPendingValue] })

/-- R170, R173, R174: the request a master writes for an id passes every check and decodes to that id. -/
def Obligations.RequestForAnIdIsAccepted : Prop :=
  ∀ (op : Opcode) (id : Byte), ∃ r : Request,
    requestFor op id = r.bytes op ∧ (requestInstr op r).wellFormed = true ∧
      requestCrc r = crc16Of (r.covered op) ∧ requestId r = id

/-- R180, spec/90_conflicts.md C2: with the six covered bytes as they are, exactly the CRC digits that decode to the
computed value are accepted, upper or lower case alike. -/
def Obligations.ExactlyTheComputedCrcIsAccepted : Prop :=
  ∀ (op : Opcode) (r r' : Request), r.covered op = r'.covered op → requestCrcOk op r = true →
    (requestCrcOk op r' = true ↔
      hexValue r'.crc3 = hexValue r.crc3 ∧ hexValue r'.crc2 = hexValue r.crc2 ∧
        hexValue r'.crc1 = hexValue r.crc1 ∧ hexValue r'.crc0 = hexValue r.crc0)

/-- R178, R179: the end of any frame either drops it, with one of the four tags and `fa_idx` back at 0, or starts one
reply; it writes no register of the registry, no flag, no `crc_acc`, and emits nothing. -/
def Obligations.EndOfFrameDropsOrStartsOneReply : Prop :=
  ∀ (s : State) (bs : List Byte),
    (∃ tag : DropTag, tag ∈ [.frameMalformed, .crcMismatch, .unknownId, .noPendingValue] ∧
      s.endOfFrame bs = { s with faIdx := 0, drops := s.drops ++ [tag] }) ∨
    ∃ (k : Nat) (x : Slot), s.slots[k]? = some x ∧ x.desc ≠ [] ∧
      (s.endOfFrame bs =
          { s with resp := (bodyDiscovery x).take s.params.maxResp, pendingClear := none, de := .tx, phase := .txTurn } ∨
        x.haveValue = true ∧ s.endOfFrame bs =
          { s with resp := (bodyPoll x).take s.params.maxResp, pendingClear := some k, de := .tx, phase := .txTurn })

/-- R71, R156, R170 to R178: from `LISTEN` with the assembler idle, the bytes of the request a master writes for an id,
then `\n`, run the validator's work on that request, and nothing else happens. -/
def Obligations.ReceivedRequestReachesItsHandler : Prop :=
  ∀ (s : State) (op : Opcode) (id : Byte) (rest : List Input),
    s.phase = .listen → s.faIdx = 0 → s.faBuf.length = s.params.maxReq → 10 ≤ s.params.maxReq →
    s.inputs = (requestFor op id).map Input.rx ++ [.rx 0x0A] ++ rest →
    core.run 11 s =
      .next (match op with
        | .discover =>
          State.discovery { s with faBuf := requestFor op id ++ s.faBuf.drop 10, faIdx := 10, inputs := rest } id
        | .poll =>
          State.poll { s with faBuf := requestFor op id ++ s.faBuf.drop 10, faIdx := 10, inputs := rest } id)

-- The reply text.

/-- R190 to R192: building a body byte by byte through the bounded buffer leaves the text cut to the buffer's size. -/
def Obligations.EncoderLeavesTheTruncatedText : Prop :=
  ∀ (max : Nat) (x : Slot),
    encodeDiscovery max x = (bodyDiscovery x).take max ∧ encodePoll max x = (bodyPoll x).take max

/-- R202: no reply holds `'?'`, neither in its body nor anywhere on the wire, whatever `render6` gives. -/
def Obligations.NoReplyHoldsAQuestionMark : Prop :=
  ∀ (max : Nat) (x : Slot),
    0x3F ∉ wire max (bodyDiscovery x) ∧ 0x3F ∉ wire max (bodyPoll x)

/-- R76, R77, R79: only the delimiters of the body itself are `'|'`, so the fields of a reply can be told apart: three of
them in a discovery body, one in a poll body; and `'!'` only begins it. -/
def Obligations.ReplyFieldsAreDelimited : Prop :=
  ∀ x : Slot, (bodyDiscovery x).count 0x7C = 3 ∧ (bodyPoll x).count 0x7C = 1 ∧
    (bodyDiscovery x).count 0x21 = 1 ∧ (bodyPoll x).count 0x21 = 1

-- The registry and the host commands.

/-- R132: `find_slot` gives the least index whose slot is free or holds the id, and none exactly where there is none. -/
def Obligations.FindSlotGivesTheLeastFreeOrMatching : Prop :=
  ∀ (id : Byte) (slots : List Slot),
    (∀ k, findSlot id slots = some k ↔
      (∃ x ∈ slots[k]?, x.desc = [] ∨ x.devId = id) ∧
        ∀ i < k, ∃ y ∈ slots[i]?, y.desc ≠ [] ∧ y.devId ≠ id) ∧
    (findSlot id slots = none ↔ ∀ x ∈ slots, x.desc ≠ [] ∧ x.devId ≠ id)

/-- R137: `lookup` gives the first slot that holds the id with only occupied slots before it, and no other. -/
def Obligations.LookupStopsAtTheFirstFreeSlot : Prop :=
  ∀ (id : Byte) (slots : List Slot) (k : Nat) (x : Slot),
    lookup id slots = some (k, x) ↔
      slots[k]? = some x ∧ x.desc ≠ [] ∧ x.devId = id ∧ ∀ i < k, ∃ y ∈ slots[i]?, y.desc ≠ [] ∧ y.devId ≠ id

/-- R136, R137, R138: where the registry is legal, `lookup` gives exactly the occupied slot with that id, wherever it
stands, and an id above 127 never gives one. -/
def Obligations.LookupFindsTheSlotOfAnId : Prop :=
  ∀ (s : State) (id : Byte), s.registryLegal →
    (∀ k x, lookup id s.slots = some (k, x) ↔ s.slots[k]? = some x ∧ x.desc ≠ [] ∧ x.devId = id) ∧
      (127 < id.toNat → lookup id s.slots = none)

/-- R130, R132, R133: an accepted CONFIGURE after setup writes all six fields of the slot found, and nothing else. -/
def Obligations.ConfigureWritesItsSlot : Prop :=
  ∀ (s : State) (id : Byte) (poll : Nat) (desc unit : List Byte) (k : Nat),
    (s.phase = .off ∨ s.phase = .listen) → id.toNat ≤ 127 → poll < 2 ^ s.params.pollW → 0 ∉ desc → 0 ∉ unit →
    desc ≠ [] → findSlot id s.slots = some k → s.setupDone = true →
    exec (.hostConfigure id poll desc unit) s =
      .next { s with
        slots := s.slots.set k
          { desc := desc, devId := id, poll := poll, unit := unit, value := Value.zero, haveValue := false } }

/-- R130, R135, R226: the first CONFIGURE that writes a slot performs the one-time setup in the same step. -/
def Obligations.FirstConfigureSetsUp : Prop :=
  ∀ (s : State) (id : Byte) (poll : Nat) (desc unit : List Byte) (k : Nat),
    (s.phase = .off ∨ s.phase = .listen) → id.toNat ≤ 127 → poll < 2 ^ s.params.pollW → 0 ∉ desc → 0 ∉ unit →
    desc ≠ [] → findSlot id s.slots = some k → s.setupDone = false →
    exec (.hostConfigure id poll desc unit) s =
      .next { s with
        slots := s.slots.set k
          { desc := desc, devId := id, poll := poll, unit := unit, value := Value.zero, haveValue := false }
        setupDone := true
        uart := some s.params.uartCfg
        outs := s.outs ++ [.uartConfigure s.params.uartCfg]
        de := .rx
        phase := .listen }

/-- R130, R134: a CONFIGURE without a description, or with no slot to write, is dropped and changes nothing. -/
def Obligations.ConfigureWithoutEffectIsDropped : Prop :=
  ∀ (s : State) (id : Byte) (poll : Nat) (desc unit : List Byte),
    (s.phase = .off ∨ s.phase = .listen) → id.toNat ≤ 127 → poll < 2 ^ s.params.pollW → 0 ∉ desc → 0 ∉ unit →
    (desc = [] → exec (.hostConfigure id poll desc unit) s = .next { s with drops := s.drops ++ [.configNoDesc] }) ∧
    (desc ≠ [] → findSlot id s.slots = none →
      exec (.hostConfigure id poll desc unit) s = .next { s with drops := s.drops ++ [.registryFull] })

/-- R131, R247: a CONFIGURE with an operand out of range is refused before anything else is looked at: the mark is set
and nothing else changes. Where several operands are out of range the reason observed is the first of R131's list, which
is the model's choice (notes/assumptions/8.md). -/
def Obligations.ConfigureOutOfRangeIsRefused : Prop :=
  ∀ (s : State) (id : Byte) (poll : Nat) (desc unit : List Byte),
    (s.phase = .off ∨ s.phase = .listen) →
    (127 < id.toNat → exec (.hostConfigure id poll desc unit) s =
      .next { s with refused := true, refusals := s.refusals ++ [.hostIdRange] }) ∧
    (id.toNat ≤ 127 → 2 ^ s.params.pollW ≤ poll → exec (.hostConfigure id poll desc unit) s =
      .next { s with refused := true, refusals := s.refusals ++ [.hostPollRange] }) ∧
    (id.toNat ≤ 127 → poll < 2 ^ s.params.pollW → (0 ∈ desc ∨ 0 ∈ unit) → exec (.hostConfigure id poll desc unit) s =
      .next { s with refused := true, refusals := s.refusals ++ [.hostNulByte] })

/-- R136: SET_VALUE stores the value of the slot found and marks it pending; an unknown id is dropped; no id is
refused. -/
def Obligations.SetValueStoresAndMarks : Prop :=
  ∀ (s : State) (id : Byte) (v : Value), (s.phase = .off ∨ s.phase = .listen) →
    (∀ k x, lookup id s.slots = some (k, x) →
      exec (.hostSetValue id v) s = .next { s with slots := s.slots.set k { x with value := v, haveValue := true } }) ∧
    (lookup id s.slots = none →
      exec (.hostSetValue id v) s = .next { s with drops := s.drops ++ [.unknownIdSet] })

/-- R80, R247: the reserved command sets the mark `refused` and changes nothing else. -/
def Obligations.ReservedCommandOnlySetsTheMark : Prop :=
  ∀ s : State, (s.phase = .off ∨ s.phase = .listen) →
    exec .hostReserved s = .next { s with refused := true, refusals := s.refusals ++ [.hostReservedOp] }

/-- R35, R38: outside `OFF` and `LISTEN` no host command has any effect; outside `LISTEN` no received byte has one; and
a byte of a class that is not the assembler's is not taken. -/
def Obligations.InputsNotEnabledHaveNoEffect : Prop :=
  ∀ s : State,
    (s.phase ≠ .off → s.phase ≠ .listen → ∀ c : HostCommand, exec (decodeCommand c) s = .next s) ∧
    (s.phase ≠ .listen → ∀ (st : AssemblerState) (bs : List Byte) (b : Byte),
      exec (decodeReceived st bs b) s = .next s) ∧
    (s.faIdx ≠ 0 → exec .rxStart s = .next s) ∧
    (s.faIdx = 0 → ∀ (b : Byte) (r : Request), exec .rxLf s = .next s ∧ exec (.rxData b) s = .next s ∧
      exec (.rxOverflow b) s = .next s ∧ exec (.reqDiscover r) s = .next s ∧ exec (.reqPoll r) s = .next s) ∧
    (s.params.maxReq ≤ s.faIdx → ∀ b : Byte, exec (.rxData b) s = .next s) ∧
    (s.faIdx < s.params.maxReq → ∀ b : Byte, exec (.rxOverflow b) s = .next s)

/-- R138: every host command keeps the registry legal: occupied slots first, ids distinct and at most 127. -/
def Obligations.HostCommandsKeepTheRegistryLegal : Prop :=
  ∀ (s t : State) (c : HostCommand), s.registryLegal → exec (decodeCommand c) s = .next t → t.registryLegal

/-- R139: configuring an id that is present overwrites its slot in place and leaves `device_count` as it was. -/
def Obligations.ReconfigureKeepsTheDeviceCount : Prop :=
  ∀ (s : State) (id : Byte) (poll : Nat) (desc unit : List Byte) (k : Nat) (x : Slot), s.registryLegal →
    s.phase = .listen → s.setupDone = true → poll < 2 ^ s.params.pollW → 0 ∉ desc → 0 ∉ unit → desc ≠ [] →
    s.slots[k]? = some x → x.desc ≠ [] → x.devId = id →
    ∃ t, exec (.hostConfigure id poll desc unit) s = .next t ∧ deviceCount t.slots = deviceCount s.slots ∧
      t.slots[k]? =
        some { desc := desc, devId := id, poll := poll, unit := unit, value := Value.zero, haveValue := false } ∧
      ∀ i ≠ k, t.slots[i]? = s.slots[i]?

-- Sending a reply.

/-- R222, R223: the two delays end in their phases and change nothing but the phase. -/
def Obligations.DelaysEndInTheirPhases : Prop :=
  ∀ (s : State) (rest : List Input),
    (s.phase = .txTurn → s.inputs = .label .turnElapsed :: rest →
      step s = .next { s with phase := .txSettle, inputs := rest }) ∧
    (s.phase = .txSettle → s.inputs = .label .settleElapsed :: rest →
      step s = .next { s with phase := .txSync, inputs := rest })

/-- R195, R198, R200: the sync byte and the two terminator bytes, each written with `txc` cleared in the same step. -/
def Obligations.SyncByteAndTerminatorAreWritten : Prop :=
  ∀ (s : State) (rest : List Input), s.txReady = true → s.inputs = .label .txWrite :: rest →
    (s.phase = .txSync → step s =
      .next { s with crcAcc := 0, txPos := 0, phase := .txBody, txc := false, inputs := rest,
                     outs := s.outs ++ [.txWrite 0xFF s.de] }) ∧
    (s.phase = .txCr → step s =
      .next { s with phase := .txLf, txc := false, inputs := rest, outs := s.outs ++ [.txWrite 0x0D s.de] }) ∧
    (s.phase = .txLf → step s =
      .next { s with phase := .txDrain, txc := false, inputs := rest, outs := s.outs ++ [.txWrite 0x0A s.de] })

/-- R196, R200: a body byte is written and fed to the CRC; after the last one the CRC digits follow. -/
def Obligations.BodyByteIsWrittenAndAccumulated : Prop :=
  ∀ (s : State) (rest : List Input) (b : Byte), s.txReady = true → s.inputs = .label .txWrite :: rest →
    s.phase = .txBody → s.resp[s.txPos]? = some b →
    step s =
      .next { s with crcAcc := crc16Step b s.crcAcc, txc := false, inputs := rest,
                     outs := s.outs ++ [.txWrite b s.de],
                     txPos := if s.txPos + 1 = s.resp.length then 0 else s.txPos + 1,
                     phase := if s.txPos + 1 = s.resp.length then .txCrc else .txBody }

/-- R197, R200: CRC digit `tx_pos` is the digit of bits `15 - 4 tx_pos` to `12 - 4 tx_pos`, high nibble first. -/
def Obligations.CrcDigitsAreWrittenHighNibbleFirst : Prop :=
  ∀ (s : State) (rest : List Input), s.txReady = true → s.inputs = .label .txWrite :: rest →
    s.phase = .txCrc → s.txPos < 4 →
    step s =
      .next { s with txc := false, inputs := rest,
                     outs := s.outs ++ [.txWrite (hexDigit (s.crcAcc.extractLsb' (12 - 4 * s.txPos) 4)) s.de],
                     txPos := if s.txPos = 3 then 3 else s.txPos + 1,
                     phase := if s.txPos = 3 then .txCr else .txCrc }

/-- R199, R224: transmit-complete ends the reply: `de` to receive, the polled slot's `have_value` cleared, the assembler
idle, receive armed. -/
def Obligations.TransmitCompleteEndsTheReply : Prop :=
  ∀ (s : State) (rest : List Input), s.phase = .txDrain → s.txc = true → s.inputs = .label .txComplete :: rest →
    step s =
      .next { s with
        de := .rx
        slots := match s.pendingClear with
          | some k => s.slots.modify k fun x => { x with haveValue := false }
          | none => s.slots
        pendingClear := none
        faIdx := 0
        phase := .listen
        inputs := rest }

/-- R177, R199: once the reply that delivers a value has ended, a poll for the same id is dropped for want of a value:
each set value is delivered at most once. -/
def Obligations.DeliveredValueIsNotDeliveredAgain : Prop :=
  ∀ (s : State) (k : Nat) (x : Slot), s.registryLegal → s.pendingClear = some k → s.slots[k]? = some x →
    x.desc ≠ [] → s.endReply.poll x.devId = s.endReply.finishSilent .noPendingValue

/-- R78, R195 to R201, R282: from the start of a reply, `len(resp) + 10` steps carry it to its end: what is written is
exactly the wire image of the body, with `de` as it was when the reply began, and the block is back in `LISTEN` with the
assembler idle and the delivered value cleared. That the UART's raising of `txc` stands among the inputs and is no step of
its own is the model's choice (notes/assumptions/10.md). -/
def Obligations.ReplySendsItsWireImage : Prop :=
  ∀ (s : State) (rest : List Input), s.phase = .txTurn → s.txReady = true → s.resp ≠ [] →
    s.resp.length ≤ s.params.maxResp → s.inputs = replyInputs s.resp.length ++ rest →
    core.run (s.resp.length + 10) s =
      .next { s with
        outs := s.outs ++ (wire s.params.maxResp s.resp).map fun b => OutLabel.txWrite b s.de
        crcAcc := crc16Of s.resp
        txPos := 3
        txc := true
        de := .rx
        slots := match s.pendingClear with
          | some k => s.slots.modify k fun x => { x with haveValue := false }
          | none => s.slots
        pendingClear := none
        faIdx := 0
        phase := .listen
        inputs := rest }

/-- R246: without the UART's `txc` and without a reset, a reply in `TX_DRAIN` stays there for ever, whatever else the
environment offers: the bus stays driven, and no host command and no received byte is taken. How the environment raises
`txc` is the model's choice (notes/assumptions/10.md). -/
def Obligations.StuckTransmitCompleteHangs : Prop :=
  ∀ (n : Nat) (s : State), s.phase = .txDrain → s.txc = false →
    Input.pin .txcRise ∉ s.inputs → Input.label .rst ∉ s.inputs →
    ∃ t, core.run n s = .next t ∧
      t = { s with txReady := t.txReady, inputs := t.inputs } ∧
      t.inputs.filter (fun x => match x with | .pin (.txReady _) => false | _ => true) =
        s.inputs.filter (fun x => match x with | .pin (.txReady _) => false | _ => true)

-- The whole machine.

/-- R11, R38: the next step takes the first enabled input the environment offers; where that is a host command or a
received byte, the step is `exec` of the instruction it decodes to, with that input taken and the others still
offered. A change of a pin is no step: the step is that of the state with the pin changed. That the environment's choices
stand in one list, and the pins' changes among them, is the model's choice (notes/assumptions/4.md,
notes/assumptions/10.md). -/
def Obligations.StepRunsTheDecodedInstruction : Prop :=
  ∀ (s : State) (before after : List Input), (∀ x ∈ before, s.enabled x = false) →
    (∀ (c : HostCommand) (i : Instr), s.inputs = before ++ .host c :: after →
      (s.phase = .off ∨ s.phase = .listen) → decode (.command c) = .ok i →
      step s = exec i { s with inputs := before ++ after }) ∧
    (∀ (b : Byte) (i : Instr), s.inputs = before ++ .rx b :: after → s.phase = .listen →
      decode (.byte s.assembler b) = .ok i → (∀ j, i = .rxLf → decode (.frame s.frame) ≠ .ok j) →
      step s = exec i { s with inputs := before ++ after }) ∧
    (∀ (i : Instr), s.inputs = before ++ .rx 0x0A :: after → s.phase = .listen → s.faIdx ≠ 0 →
      decode (.frame s.frame) = .ok i →
      step s = exec i { s with inputs := before ++ after }) ∧
    (∀ v : Bool, s.inputs = .pin (.txReady v) :: after → step s = step { s with txReady := v, inputs := after }) ∧
    (s.inputs = .pin .txcRise :: after → step s = step { s with txc := true, inputs := after })

/-- R11, R35, R36, R246: where nothing the environment offers is enabled, and no pin changes, the block waits and nothing
changes; the inputs stay offered. That waiting is a step of its own is the model's choice (notes/assumptions/4.md). -/
def Obligations.StepWaitsWhereNothingIsEnabled : Prop :=
  ∀ s : State, (∀ x ∈ s.inputs, s.enabled x = false) → step s = .next s

/-- R270, R271: reset, from any phase, puts every element of the block into its reset value and emits nothing. That the
UART's configuration is lost with it (R272) is the model's reading (notes/assumptions/11.md), and that what has been
observed and offered stays is another (notes/assumptions/12.md). -/
def Obligations.ResetRestoresEveryElement : Prop :=
  ∀ (s : State) (rest : List Input), s.inputs = .label .rst :: rest →
    ∃ t, step s = .next t ∧ t.slots.length = s.params.nSlots ∧ (∀ x ∈ t.slots, x.desc = []) ∧ t.setupDone = false ∧
      t.faIdx = 0 ∧ t.phase = .off ∧ t.resp = [] ∧ t.txPos = 0 ∧ t.crcAcc = 0 ∧ t.pendingClear = none ∧
      t.de = .undriven ∧ t.refused = false ∧ t.outs = s.outs ∧ t.drops = s.drops ∧ t.inputs = rest ∧ t.uart = none

/-- R6, R270: for all parameters that R6 admits, the state after reset is legal. The values R270 leaves open are the model's
choice (notes/assumptions/2.md), and so are the parameters of `State.reset` (notes/assumptions/1.md). -/
def Obligations.ResetStateIsLegal : Prop :=
  (∀ p : Params, Config.paramsLegal p → (State.resetOf p).Inv) ∧ State.reset.Inv

/-- R25, R28, R138, R156, R202, R227 and the rest of `State.Inv`: every step of a legal state leads to a legal state,
whatever the environment offers. -/
def Obligations.EveryStepKeepsTheInvariant : Prop :=
  ∀ s t : State, s.Inv → step s = .next t → t.Inv

/-- R240: a legal state never stops: every step answers a next state; where no input is enabled it waits, which as a
step is the model's choice (notes/assumptions/4.md). -/
def Obligations.LegalStatesNeverStop : Prop := ∀ s : State, s.Inv → ∃ t, step s = .next t

/-- R227: in every run of legal states, every byte is written while the transceiver is in transmit mode. -/
def Obligations.EveryWriteIsInTransmitMode : Prop :=
  ∀ s t : State, s.Inv → writtenInTransmit s.outs = true → step s = .next t → writtenInTransmit t.outs = true

/-- R225, R227: `de` changes only at setup, at the start of a reply, at the end of a reply (only after `txc = 1`), and
at reset. -/
def Obligations.DirectionChangesOnlyAtItsSwitches : Prop :=
  ∀ s t : State, s.Inv → step s = .next t → t.de ≠ s.de →
    (s.de = .undriven ∧ t.de = .rx ∧ s.phase = .off ∧ s.setupDone = false ∧ t.setupDone = true) ∨
    (s.de = .rx ∧ t.de = .tx ∧ s.phase = .listen ∧ t.phase = .txTurn ∧ s.faIdx ≠ 0) ∨
    (s.de = .tx ∧ t.de = .rx ∧ s.phase = .txDrain ∧ t.phase = .listen ∧
      ∃ s' : State, s.fetch = .label .txComplete s' ∧ s'.txc = true) ∨
    (∃ s' : State, s.fetch = .label .rst s' ∧ t.de = .undriven)

/-- R248: only host commands and reset write the texts, ids, intervals and readings of the registry; every other step
leaves them, and can only clear `have_value`. -/
def Obligations.OnlyTheHostWritesTheRegistry : Prop :=
  ∀ s t : State, step s = .next t →
    (∃ (c : HostCommand) (s' : State), s.fetch = .instr (decodeCommand c) s') ∨
    (∃ s' : State, s.fetch = .label .rst s') ∨
    (t.slots.map fun x => (x.desc, x.devId, x.poll, x.unit, x.value)) =
        (s.slots.map fun x => (x.desc, x.devId, x.poll, x.unit, x.value)) ∧
      ∀ (i : Nat) (x y : Slot), s.slots[i]? = some x → t.slots[i]? = some y →
        y.haveValue = true → x.haveValue = true

/-- R33, R247: once set, the mark `refused` stays until reset; and R6: no step changes the parameters. -/
def Obligations.RefusedMarkStaysUntilReset : Prop :=
  ∀ s t : State, step s = .next t →
    t.params = s.params ∧ (s.refused = true → t.refused = true ∨ ∃ s' : State, s.fetch = .label .rst s')
end

