-- ==== Sys2Proof/Laws/State.lean ====
section
/-! SUPPORT. One lemma per field of `State` per update of Machine/Flags.lean, Ops.lean, Transmitter.lean and Fetch.lean:
what the field is after the update. -/

namespace Sys2Proof.Machine

@[simp] theorem State.clearHaveValue_params (s : State) (k : Nat) : (s.clearHaveValue k).params = s.params := rfl
@[simp] theorem State.clearHaveValue_slots (s : State) (k : Nat) : (s.clearHaveValue k).slots = s.slots.modify k Slot.delivered := rfl
@[simp] theorem State.clearHaveValue_setupDone (s : State) (k : Nat) : (s.clearHaveValue k).setupDone = s.setupDone := rfl
@[simp] theorem State.clearHaveValue_faBuf (s : State) (k : Nat) : (s.clearHaveValue k).faBuf = s.faBuf := rfl
@[simp] theorem State.clearHaveValue_faIdx (s : State) (k : Nat) : (s.clearHaveValue k).faIdx = s.faIdx := rfl
@[simp] theorem State.clearHaveValue_phase (s : State) (k : Nat) : (s.clearHaveValue k).phase = s.phase := rfl
@[simp] theorem State.clearHaveValue_resp (s : State) (k : Nat) : (s.clearHaveValue k).resp = s.resp := rfl
@[simp] theorem State.clearHaveValue_txPos (s : State) (k : Nat) : (s.clearHaveValue k).txPos = s.txPos := rfl
@[simp] theorem State.clearHaveValue_crcAcc (s : State) (k : Nat) : (s.clearHaveValue k).crcAcc = s.crcAcc := rfl
@[simp] theorem State.clearHaveValue_pendingClear (s : State) (k : Nat) : (s.clearHaveValue k).pendingClear = s.pendingClear := rfl
@[simp] theorem State.clearHaveValue_de (s : State) (k : Nat) : (s.clearHaveValue k).de = s.de := rfl
@[simp] theorem State.clearHaveValue_refused (s : State) (k : Nat) : (s.clearHaveValue k).refused = s.refused := rfl
@[simp] theorem State.clearHaveValue_txReady (s : State) (k : Nat) : (s.clearHaveValue k).txReady = s.txReady := rfl
@[simp] theorem State.clearHaveValue_txc (s : State) (k : Nat) : (s.clearHaveValue k).txc = s.txc := rfl
@[simp] theorem State.clearHaveValue_uart (s : State) (k : Nat) : (s.clearHaveValue k).uart = s.uart := rfl
@[simp] theorem State.clearHaveValue_inputs (s : State) (k : Nat) : (s.clearHaveValue k).inputs = s.inputs := rfl
@[simp] theorem State.clearHaveValue_outs (s : State) (k : Nat) : (s.clearHaveValue k).outs = s.outs := rfl
@[simp] theorem State.clearHaveValue_drops (s : State) (k : Nat) : (s.clearHaveValue k).drops = s.drops := rfl
@[simp] theorem State.clearHaveValue_refusals (s : State) (k : Nat) : (s.clearHaveValue k).refusals = s.refusals := rfl

@[simp] theorem State.markSetup_params (s : State) : (s.markSetup).params = s.params := rfl
@[simp] theorem State.markSetup_slots (s : State) : (s.markSetup).slots = s.slots := rfl
@[simp] theorem State.markSetup_setupDone (s : State) : (s.markSetup).setupDone = true := rfl
@[simp] theorem State.markSetup_faBuf (s : State) : (s.markSetup).faBuf = s.faBuf := rfl
@[simp] theorem State.markSetup_faIdx (s : State) : (s.markSetup).faIdx = s.faIdx := rfl
@[simp] theorem State.markSetup_phase (s : State) : (s.markSetup).phase = s.phase := rfl
@[simp] theorem State.markSetup_resp (s : State) : (s.markSetup).resp = s.resp := rfl
@[simp] theorem State.markSetup_txPos (s : State) : (s.markSetup).txPos = s.txPos := rfl
@[simp] theorem State.markSetup_crcAcc (s : State) : (s.markSetup).crcAcc = s.crcAcc := rfl
@[simp] theorem State.markSetup_pendingClear (s : State) : (s.markSetup).pendingClear = s.pendingClear := rfl
@[simp] theorem State.markSetup_de (s : State) : (s.markSetup).de = s.de := rfl
@[simp] theorem State.markSetup_refused (s : State) : (s.markSetup).refused = s.refused := rfl
@[simp] theorem State.markSetup_txReady (s : State) : (s.markSetup).txReady = s.txReady := rfl
@[simp] theorem State.markSetup_txc (s : State) : (s.markSetup).txc = s.txc := rfl
@[simp] theorem State.markSetup_uart (s : State) : (s.markSetup).uart = s.uart := rfl
@[simp] theorem State.markSetup_inputs (s : State) : (s.markSetup).inputs = s.inputs := rfl
@[simp] theorem State.markSetup_outs (s : State) : (s.markSetup).outs = s.outs := rfl
@[simp] theorem State.markSetup_drops (s : State) : (s.markSetup).drops = s.drops := rfl
@[simp] theorem State.markSetup_refusals (s : State) : (s.markSetup).refusals = s.refusals := rfl

@[simp] theorem State.markRefused_params (s : State) : (s.markRefused).params = s.params := rfl
@[simp] theorem State.markRefused_slots (s : State) : (s.markRefused).slots = s.slots := rfl
@[simp] theorem State.markRefused_setupDone (s : State) : (s.markRefused).setupDone = s.setupDone := rfl
@[simp] theorem State.markRefused_faBuf (s : State) : (s.markRefused).faBuf = s.faBuf := rfl
@[simp] theorem State.markRefused_faIdx (s : State) : (s.markRefused).faIdx = s.faIdx := rfl
@[simp] theorem State.markRefused_phase (s : State) : (s.markRefused).phase = s.phase := rfl
@[simp] theorem State.markRefused_resp (s : State) : (s.markRefused).resp = s.resp := rfl
@[simp] theorem State.markRefused_txPos (s : State) : (s.markRefused).txPos = s.txPos := rfl
@[simp] theorem State.markRefused_crcAcc (s : State) : (s.markRefused).crcAcc = s.crcAcc := rfl
@[simp] theorem State.markRefused_pendingClear (s : State) : (s.markRefused).pendingClear = s.pendingClear := rfl
@[simp] theorem State.markRefused_de (s : State) : (s.markRefused).de = s.de := rfl
@[simp] theorem State.markRefused_refused (s : State) : (s.markRefused).refused = true := rfl
@[simp] theorem State.markRefused_txReady (s : State) : (s.markRefused).txReady = s.txReady := rfl
@[simp] theorem State.markRefused_txc (s : State) : (s.markRefused).txc = s.txc := rfl
@[simp] theorem State.markRefused_uart (s : State) : (s.markRefused).uart = s.uart := rfl
@[simp] theorem State.markRefused_inputs (s : State) : (s.markRefused).inputs = s.inputs := rfl
@[simp] theorem State.markRefused_outs (s : State) : (s.markRefused).outs = s.outs := rfl
@[simp] theorem State.markRefused_drops (s : State) : (s.markRefused).drops = s.drops := rfl
@[simp] theorem State.markRefused_refusals (s : State) : (s.markRefused).refusals = s.refusals := rfl

@[simp] theorem State.raiseTxc_params (s : State) : (s.raiseTxc).params = s.params := rfl
@[simp] theorem State.raiseTxc_slots (s : State) : (s.raiseTxc).slots = s.slots := rfl
@[simp] theorem State.raiseTxc_setupDone (s : State) : (s.raiseTxc).setupDone = s.setupDone := rfl
@[simp] theorem State.raiseTxc_faBuf (s : State) : (s.raiseTxc).faBuf = s.faBuf := rfl
@[simp] theorem State.raiseTxc_faIdx (s : State) : (s.raiseTxc).faIdx = s.faIdx := rfl
@[simp] theorem State.raiseTxc_phase (s : State) : (s.raiseTxc).phase = s.phase := rfl
@[simp] theorem State.raiseTxc_resp (s : State) : (s.raiseTxc).resp = s.resp := rfl
@[simp] theorem State.raiseTxc_txPos (s : State) : (s.raiseTxc).txPos = s.txPos := rfl
@[simp] theorem State.raiseTxc_crcAcc (s : State) : (s.raiseTxc).crcAcc = s.crcAcc := rfl
@[simp] theorem State.raiseTxc_pendingClear (s : State) : (s.raiseTxc).pendingClear = s.pendingClear := rfl
@[simp] theorem State.raiseTxc_de (s : State) : (s.raiseTxc).de = s.de := rfl
@[simp] theorem State.raiseTxc_refused (s : State) : (s.raiseTxc).refused = s.refused := rfl
@[simp] theorem State.raiseTxc_txReady (s : State) : (s.raiseTxc).txReady = s.txReady := rfl
@[simp] theorem State.raiseTxc_txc (s : State) : (s.raiseTxc).txc = true := rfl
@[simp] theorem State.raiseTxc_uart (s : State) : (s.raiseTxc).uart = s.uart := rfl
@[simp] theorem State.raiseTxc_inputs (s : State) : (s.raiseTxc).inputs = s.inputs := rfl
@[simp] theorem State.raiseTxc_outs (s : State) : (s.raiseTxc).outs = s.outs := rfl
@[simp] theorem State.raiseTxc_drops (s : State) : (s.raiseTxc).drops = s.drops := rfl
@[simp] theorem State.raiseTxc_refusals (s : State) : (s.raiseTxc).refusals = s.refusals := rfl

@[simp] theorem State.clearTxc_params (s : State) : (s.clearTxc).params = s.params := rfl
@[simp] theorem State.clearTxc_slots (s : State) : (s.clearTxc).slots = s.slots := rfl
@[simp] theorem State.clearTxc_setupDone (s : State) : (s.clearTxc).setupDone = s.setupDone := rfl
@[simp] theorem State.clearTxc_faBuf (s : State) : (s.clearTxc).faBuf = s.faBuf := rfl
@[simp] theorem State.clearTxc_faIdx (s : State) : (s.clearTxc).faIdx = s.faIdx := rfl
@[simp] theorem State.clearTxc_phase (s : State) : (s.clearTxc).phase = s.phase := rfl
@[simp] theorem State.clearTxc_resp (s : State) : (s.clearTxc).resp = s.resp := rfl
@[simp] theorem State.clearTxc_txPos (s : State) : (s.clearTxc).txPos = s.txPos := rfl
@[simp] theorem State.clearTxc_crcAcc (s : State) : (s.clearTxc).crcAcc = s.crcAcc := rfl
@[simp] theorem State.clearTxc_pendingClear (s : State) : (s.clearTxc).pendingClear = s.pendingClear := rfl
@[simp] theorem State.clearTxc_de (s : State) : (s.clearTxc).de = s.de := rfl
@[simp] theorem State.clearTxc_refused (s : State) : (s.clearTxc).refused = s.refused := rfl
@[simp] theorem State.clearTxc_txReady (s : State) : (s.clearTxc).txReady = s.txReady := rfl
@[simp] theorem State.clearTxc_txc (s : State) : (s.clearTxc).txc = false := rfl
@[simp] theorem State.clearTxc_uart (s : State) : (s.clearTxc).uart = s.uart := rfl
@[simp] theorem State.clearTxc_inputs (s : State) : (s.clearTxc).inputs = s.inputs := rfl
@[simp] theorem State.clearTxc_outs (s : State) : (s.clearTxc).outs = s.outs := rfl
@[simp] theorem State.clearTxc_drops (s : State) : (s.clearTxc).drops = s.drops := rfl
@[simp] theorem State.clearTxc_refusals (s : State) : (s.clearTxc).refusals = s.refusals := rfl

@[simp] theorem State.driveTxReady_params (s : State) (v : Bool) : (s.driveTxReady v).params = s.params := rfl
@[simp] theorem State.driveTxReady_slots (s : State) (v : Bool) : (s.driveTxReady v).slots = s.slots := rfl
@[simp] theorem State.driveTxReady_setupDone (s : State) (v : Bool) : (s.driveTxReady v).setupDone = s.setupDone := rfl
@[simp] theorem State.driveTxReady_faBuf (s : State) (v : Bool) : (s.driveTxReady v).faBuf = s.faBuf := rfl
@[simp] theorem State.driveTxReady_faIdx (s : State) (v : Bool) : (s.driveTxReady v).faIdx = s.faIdx := rfl
@[simp] theorem State.driveTxReady_phase (s : State) (v : Bool) : (s.driveTxReady v).phase = s.phase := rfl
@[simp] theorem State.driveTxReady_resp (s : State) (v : Bool) : (s.driveTxReady v).resp = s.resp := rfl
@[simp] theorem State.driveTxReady_txPos (s : State) (v : Bool) : (s.driveTxReady v).txPos = s.txPos := rfl
@[simp] theorem State.driveTxReady_crcAcc (s : State) (v : Bool) : (s.driveTxReady v).crcAcc = s.crcAcc := rfl
@[simp] theorem State.driveTxReady_pendingClear (s : State) (v : Bool) : (s.driveTxReady v).pendingClear = s.pendingClear := rfl
@[simp] theorem State.driveTxReady_de (s : State) (v : Bool) : (s.driveTxReady v).de = s.de := rfl
@[simp] theorem State.driveTxReady_refused (s : State) (v : Bool) : (s.driveTxReady v).refused = s.refused := rfl
@[simp] theorem State.driveTxReady_txReady (s : State) (v : Bool) : (s.driveTxReady v).txReady = v := rfl
@[simp] theorem State.driveTxReady_txc (s : State) (v : Bool) : (s.driveTxReady v).txc = s.txc := rfl
@[simp] theorem State.driveTxReady_uart (s : State) (v : Bool) : (s.driveTxReady v).uart = s.uart := rfl
@[simp] theorem State.driveTxReady_inputs (s : State) (v : Bool) : (s.driveTxReady v).inputs = s.inputs := rfl
@[simp] theorem State.driveTxReady_outs (s : State) (v : Bool) : (s.driveTxReady v).outs = s.outs := rfl
@[simp] theorem State.driveTxReady_drops (s : State) (v : Bool) : (s.driveTxReady v).drops = s.drops := rfl
@[simp] theorem State.driveTxReady_refusals (s : State) (v : Bool) : (s.driveTxReady v).refusals = s.refusals := rfl

@[simp] theorem State.emit_params (s : State) (o : OutLabel) : (s.emit o).params = s.params := rfl
@[simp] theorem State.emit_slots (s : State) (o : OutLabel) : (s.emit o).slots = s.slots := rfl
@[simp] theorem State.emit_setupDone (s : State) (o : OutLabel) : (s.emit o).setupDone = s.setupDone := rfl
@[simp] theorem State.emit_faBuf (s : State) (o : OutLabel) : (s.emit o).faBuf = s.faBuf := rfl
@[simp] theorem State.emit_faIdx (s : State) (o : OutLabel) : (s.emit o).faIdx = s.faIdx := rfl
@[simp] theorem State.emit_phase (s : State) (o : OutLabel) : (s.emit o).phase = s.phase := rfl
@[simp] theorem State.emit_resp (s : State) (o : OutLabel) : (s.emit o).resp = s.resp := rfl
@[simp] theorem State.emit_txPos (s : State) (o : OutLabel) : (s.emit o).txPos = s.txPos := rfl
@[simp] theorem State.emit_crcAcc (s : State) (o : OutLabel) : (s.emit o).crcAcc = s.crcAcc := rfl
@[simp] theorem State.emit_pendingClear (s : State) (o : OutLabel) : (s.emit o).pendingClear = s.pendingClear := rfl
@[simp] theorem State.emit_de (s : State) (o : OutLabel) : (s.emit o).de = s.de := rfl
@[simp] theorem State.emit_refused (s : State) (o : OutLabel) : (s.emit o).refused = s.refused := rfl
@[simp] theorem State.emit_txReady (s : State) (o : OutLabel) : (s.emit o).txReady = s.txReady := rfl
@[simp] theorem State.emit_txc (s : State) (o : OutLabel) : (s.emit o).txc = s.txc := rfl
@[simp] theorem State.emit_uart (s : State) (o : OutLabel) : (s.emit o).uart = s.uart := rfl
@[simp] theorem State.emit_inputs (s : State) (o : OutLabel) : (s.emit o).inputs = s.inputs := rfl
@[simp] theorem State.emit_outs (s : State) (o : OutLabel) : (s.emit o).outs = s.outs ++ [o] := rfl
@[simp] theorem State.emit_drops (s : State) (o : OutLabel) : (s.emit o).drops = s.drops := rfl
@[simp] theorem State.emit_refusals (s : State) (o : OutLabel) : (s.emit o).refusals = s.refusals := rfl

@[simp] theorem State.drop_params (s : State) (t : DropTag) : (s.drop t).params = s.params := rfl
@[simp] theorem State.drop_slots (s : State) (t : DropTag) : (s.drop t).slots = s.slots := rfl
@[simp] theorem State.drop_setupDone (s : State) (t : DropTag) : (s.drop t).setupDone = s.setupDone := rfl
@[simp] theorem State.drop_faBuf (s : State) (t : DropTag) : (s.drop t).faBuf = s.faBuf := rfl
@[simp] theorem State.drop_faIdx (s : State) (t : DropTag) : (s.drop t).faIdx = s.faIdx := rfl
@[simp] theorem State.drop_phase (s : State) (t : DropTag) : (s.drop t).phase = s.phase := rfl
@[simp] theorem State.drop_resp (s : State) (t : DropTag) : (s.drop t).resp = s.resp := rfl
@[simp] theorem State.drop_txPos (s : State) (t : DropTag) : (s.drop t).txPos = s.txPos := rfl
@[simp] theorem State.drop_crcAcc (s : State) (t : DropTag) : (s.drop t).crcAcc = s.crcAcc := rfl
@[simp] theorem State.drop_pendingClear (s : State) (t : DropTag) : (s.drop t).pendingClear = s.pendingClear := rfl
@[simp] theorem State.drop_de (s : State) (t : DropTag) : (s.drop t).de = s.de := rfl
@[simp] theorem State.drop_refused (s : State) (t : DropTag) : (s.drop t).refused = s.refused := rfl
@[simp] theorem State.drop_txReady (s : State) (t : DropTag) : (s.drop t).txReady = s.txReady := rfl
@[simp] theorem State.drop_txc (s : State) (t : DropTag) : (s.drop t).txc = s.txc := rfl
@[simp] theorem State.drop_uart (s : State) (t : DropTag) : (s.drop t).uart = s.uart := rfl
@[simp] theorem State.drop_inputs (s : State) (t : DropTag) : (s.drop t).inputs = s.inputs := rfl
@[simp] theorem State.drop_outs (s : State) (t : DropTag) : (s.drop t).outs = s.outs := rfl
@[simp] theorem State.drop_drops (s : State) (t : DropTag) : (s.drop t).drops = s.drops ++ [t] := rfl
@[simp] theorem State.drop_refusals (s : State) (t : DropTag) : (s.drop t).refusals = s.refusals := rfl

@[simp] theorem State.refuse_params (s : State) (r : RefuseReason) : (s.refuse r).params = s.params := rfl
@[simp] theorem State.refuse_slots (s : State) (r : RefuseReason) : (s.refuse r).slots = s.slots := rfl
@[simp] theorem State.refuse_setupDone (s : State) (r : RefuseReason) : (s.refuse r).setupDone = s.setupDone := rfl
@[simp] theorem State.refuse_faBuf (s : State) (r : RefuseReason) : (s.refuse r).faBuf = s.faBuf := rfl
@[simp] theorem State.refuse_faIdx (s : State) (r : RefuseReason) : (s.refuse r).faIdx = s.faIdx := rfl
@[simp] theorem State.refuse_phase (s : State) (r : RefuseReason) : (s.refuse r).phase = s.phase := rfl
@[simp] theorem State.refuse_resp (s : State) (r : RefuseReason) : (s.refuse r).resp = s.resp := rfl
@[simp] theorem State.refuse_txPos (s : State) (r : RefuseReason) : (s.refuse r).txPos = s.txPos := rfl
@[simp] theorem State.refuse_crcAcc (s : State) (r : RefuseReason) : (s.refuse r).crcAcc = s.crcAcc := rfl
@[simp] theorem State.refuse_pendingClear (s : State) (r : RefuseReason) : (s.refuse r).pendingClear = s.pendingClear := rfl
@[simp] theorem State.refuse_de (s : State) (r : RefuseReason) : (s.refuse r).de = s.de := rfl
@[simp] theorem State.refuse_refused (s : State) (r : RefuseReason) : (s.refuse r).refused = true := rfl
@[simp] theorem State.refuse_txReady (s : State) (r : RefuseReason) : (s.refuse r).txReady = s.txReady := rfl
@[simp] theorem State.refuse_txc (s : State) (r : RefuseReason) : (s.refuse r).txc = s.txc := rfl
@[simp] theorem State.refuse_uart (s : State) (r : RefuseReason) : (s.refuse r).uart = s.uart := rfl
@[simp] theorem State.refuse_inputs (s : State) (r : RefuseReason) : (s.refuse r).inputs = s.inputs := rfl
@[simp] theorem State.refuse_outs (s : State) (r : RefuseReason) : (s.refuse r).outs = s.outs := rfl
@[simp] theorem State.refuse_drops (s : State) (r : RefuseReason) : (s.refuse r).drops = s.drops := rfl
@[simp] theorem State.refuse_refusals (s : State) (r : RefuseReason) : (s.refuse r).refusals = s.refusals ++ [r] := rfl

@[simp] theorem State.setFaIdx_params (s : State) (i : Nat) : (s.setFaIdx i).params = s.params := rfl
@[simp] theorem State.setFaIdx_slots (s : State) (i : Nat) : (s.setFaIdx i).slots = s.slots := rfl
@[simp] theorem State.setFaIdx_setupDone (s : State) (i : Nat) : (s.setFaIdx i).setupDone = s.setupDone := rfl
@[simp] theorem State.setFaIdx_faBuf (s : State) (i : Nat) : (s.setFaIdx i).faBuf = s.faBuf := rfl
@[simp] theorem State.setFaIdx_faIdx (s : State) (i : Nat) : (s.setFaIdx i).faIdx = i := rfl
@[simp] theorem State.setFaIdx_phase (s : State) (i : Nat) : (s.setFaIdx i).phase = s.phase := rfl
@[simp] theorem State.setFaIdx_resp (s : State) (i : Nat) : (s.setFaIdx i).resp = s.resp := rfl
@[simp] theorem State.setFaIdx_txPos (s : State) (i : Nat) : (s.setFaIdx i).txPos = s.txPos := rfl
@[simp] theorem State.setFaIdx_crcAcc (s : State) (i : Nat) : (s.setFaIdx i).crcAcc = s.crcAcc := rfl
@[simp] theorem State.setFaIdx_pendingClear (s : State) (i : Nat) : (s.setFaIdx i).pendingClear = s.pendingClear := rfl
@[simp] theorem State.setFaIdx_de (s : State) (i : Nat) : (s.setFaIdx i).de = s.de := rfl
@[simp] theorem State.setFaIdx_refused (s : State) (i : Nat) : (s.setFaIdx i).refused = s.refused := rfl
@[simp] theorem State.setFaIdx_txReady (s : State) (i : Nat) : (s.setFaIdx i).txReady = s.txReady := rfl
@[simp] theorem State.setFaIdx_txc (s : State) (i : Nat) : (s.setFaIdx i).txc = s.txc := rfl
@[simp] theorem State.setFaIdx_uart (s : State) (i : Nat) : (s.setFaIdx i).uart = s.uart := rfl
@[simp] theorem State.setFaIdx_inputs (s : State) (i : Nat) : (s.setFaIdx i).inputs = s.inputs := rfl
@[simp] theorem State.setFaIdx_outs (s : State) (i : Nat) : (s.setFaIdx i).outs = s.outs := rfl
@[simp] theorem State.setFaIdx_drops (s : State) (i : Nat) : (s.setFaIdx i).drops = s.drops := rfl
@[simp] theorem State.setFaIdx_refusals (s : State) (i : Nat) : (s.setFaIdx i).refusals = s.refusals := rfl

@[simp] theorem State.storeByte_params (s : State) (i : Nat) (b : Byte) : (s.storeByte i b).params = s.params := rfl
@[simp] theorem State.storeByte_slots (s : State) (i : Nat) (b : Byte) : (s.storeByte i b).slots = s.slots := rfl
@[simp] theorem State.storeByte_setupDone (s : State) (i : Nat) (b : Byte) : (s.storeByte i b).setupDone = s.setupDone := rfl
@[simp] theorem State.storeByte_faBuf (s : State) (i : Nat) (b : Byte) : (s.storeByte i b).faBuf = s.faBuf.set i b := rfl
@[simp] theorem State.storeByte_faIdx (s : State) (i : Nat) (b : Byte) : (s.storeByte i b).faIdx = i + 1 := rfl
@[simp] theorem State.storeByte_phase (s : State) (i : Nat) (b : Byte) : (s.storeByte i b).phase = s.phase := rfl
@[simp] theorem State.storeByte_resp (s : State) (i : Nat) (b : Byte) : (s.storeByte i b).resp = s.resp := rfl
@[simp] theorem State.storeByte_txPos (s : State) (i : Nat) (b : Byte) : (s.storeByte i b).txPos = s.txPos := rfl
@[simp] theorem State.storeByte_crcAcc (s : State) (i : Nat) (b : Byte) : (s.storeByte i b).crcAcc = s.crcAcc := rfl
@[simp] theorem State.storeByte_pendingClear (s : State) (i : Nat) (b : Byte) : (s.storeByte i b).pendingClear = s.pendingClear := rfl
@[simp] theorem State.storeByte_de (s : State) (i : Nat) (b : Byte) : (s.storeByte i b).de = s.de := rfl
@[simp] theorem State.storeByte_refused (s : State) (i : Nat) (b : Byte) : (s.storeByte i b).refused = s.refused := rfl
@[simp] theorem State.storeByte_txReady (s : State) (i : Nat) (b : Byte) : (s.storeByte i b).txReady = s.txReady := rfl
@[simp] theorem State.storeByte_txc (s : State) (i : Nat) (b : Byte) : (s.storeByte i b).txc = s.txc := rfl
@[simp] theorem State.storeByte_uart (s : State) (i : Nat) (b : Byte) : (s.storeByte i b).uart = s.uart := rfl
@[simp] theorem State.storeByte_inputs (s : State) (i : Nat) (b : Byte) : (s.storeByte i b).inputs = s.inputs := rfl
@[simp] theorem State.storeByte_outs (s : State) (i : Nat) (b : Byte) : (s.storeByte i b).outs = s.outs := rfl
@[simp] theorem State.storeByte_drops (s : State) (i : Nat) (b : Byte) : (s.storeByte i b).drops = s.drops := rfl
@[simp] theorem State.storeByte_refusals (s : State) (i : Nat) (b : Byte) : (s.storeByte i b).refusals = s.refusals := rfl

@[simp] theorem State.switchTo_params (s : State) (d : Direction) (p : Phase) : (s.switchTo d p).params = s.params := rfl
@[simp] theorem State.switchTo_slots (s : State) (d : Direction) (p : Phase) : (s.switchTo d p).slots = s.slots := rfl
@[simp] theorem State.switchTo_setupDone (s : State) (d : Direction) (p : Phase) : (s.switchTo d p).setupDone = s.setupDone := rfl
@[simp] theorem State.switchTo_faBuf (s : State) (d : Direction) (p : Phase) : (s.switchTo d p).faBuf = s.faBuf := rfl
@[simp] theorem State.switchTo_faIdx (s : State) (d : Direction) (p : Phase) : (s.switchTo d p).faIdx = s.faIdx := rfl
@[simp] theorem State.switchTo_phase (s : State) (d : Direction) (p : Phase) : (s.switchTo d p).phase = p := rfl
@[simp] theorem State.switchTo_resp (s : State) (d : Direction) (p : Phase) : (s.switchTo d p).resp = s.resp := rfl
@[simp] theorem State.switchTo_txPos (s : State) (d : Direction) (p : Phase) : (s.switchTo d p).txPos = s.txPos := rfl
@[simp] theorem State.switchTo_crcAcc (s : State) (d : Direction) (p : Phase) : (s.switchTo d p).crcAcc = s.crcAcc := rfl
@[simp] theorem State.switchTo_pendingClear (s : State) (d : Direction) (p : Phase) : (s.switchTo d p).pendingClear = s.pendingClear := rfl
@[simp] theorem State.switchTo_de (s : State) (d : Direction) (p : Phase) : (s.switchTo d p).de = d := rfl
@[simp] theorem State.switchTo_refused (s : State) (d : Direction) (p : Phase) : (s.switchTo d p).refused = s.refused := rfl
@[simp] theorem State.switchTo_txReady (s : State) (d : Direction) (p : Phase) : (s.switchTo d p).txReady = s.txReady := rfl
@[simp] theorem State.switchTo_txc (s : State) (d : Direction) (p : Phase) : (s.switchTo d p).txc = s.txc := rfl
@[simp] theorem State.switchTo_uart (s : State) (d : Direction) (p : Phase) : (s.switchTo d p).uart = s.uart := rfl
@[simp] theorem State.switchTo_inputs (s : State) (d : Direction) (p : Phase) : (s.switchTo d p).inputs = s.inputs := rfl
@[simp] theorem State.switchTo_outs (s : State) (d : Direction) (p : Phase) : (s.switchTo d p).outs = s.outs := rfl
@[simp] theorem State.switchTo_drops (s : State) (d : Direction) (p : Phase) : (s.switchTo d p).drops = s.drops := rfl
@[simp] theorem State.switchTo_refusals (s : State) (d : Direction) (p : Phase) : (s.switchTo d p).refusals = s.refusals := rfl

@[simp] theorem State.setPhase_params (s : State) (p : Phase) : (s.setPhase p).params = s.params := rfl
@[simp] theorem State.setPhase_slots (s : State) (p : Phase) : (s.setPhase p).slots = s.slots := rfl
@[simp] theorem State.setPhase_setupDone (s : State) (p : Phase) : (s.setPhase p).setupDone = s.setupDone := rfl
@[simp] theorem State.setPhase_faBuf (s : State) (p : Phase) : (s.setPhase p).faBuf = s.faBuf := rfl
@[simp] theorem State.setPhase_faIdx (s : State) (p : Phase) : (s.setPhase p).faIdx = s.faIdx := rfl
@[simp] theorem State.setPhase_phase (s : State) (p : Phase) : (s.setPhase p).phase = p := rfl
@[simp] theorem State.setPhase_resp (s : State) (p : Phase) : (s.setPhase p).resp = s.resp := rfl
@[simp] theorem State.setPhase_txPos (s : State) (p : Phase) : (s.setPhase p).txPos = s.txPos := rfl
@[simp] theorem State.setPhase_crcAcc (s : State) (p : Phase) : (s.setPhase p).crcAcc = s.crcAcc := rfl
@[simp] theorem State.setPhase_pendingClear (s : State) (p : Phase) : (s.setPhase p).pendingClear = s.pendingClear := rfl
@[simp] theorem State.setPhase_de (s : State) (p : Phase) : (s.setPhase p).de = s.de := rfl
@[simp] theorem State.setPhase_refused (s : State) (p : Phase) : (s.setPhase p).refused = s.refused := rfl
@[simp] theorem State.setPhase_txReady (s : State) (p : Phase) : (s.setPhase p).txReady = s.txReady := rfl
@[simp] theorem State.setPhase_txc (s : State) (p : Phase) : (s.setPhase p).txc = s.txc := rfl
@[simp] theorem State.setPhase_uart (s : State) (p : Phase) : (s.setPhase p).uart = s.uart := rfl
@[simp] theorem State.setPhase_inputs (s : State) (p : Phase) : (s.setPhase p).inputs = s.inputs := rfl
@[simp] theorem State.setPhase_outs (s : State) (p : Phase) : (s.setPhase p).outs = s.outs := rfl
@[simp] theorem State.setPhase_drops (s : State) (p : Phase) : (s.setPhase p).drops = s.drops := rfl
@[simp] theorem State.setPhase_refusals (s : State) (p : Phase) : (s.setPhase p).refusals = s.refusals := rfl

@[simp] theorem State.writeSlot_params (s : State) (k : Nat) (x : Slot) : (s.writeSlot k x).params = s.params := rfl
@[simp] theorem State.writeSlot_slots (s : State) (k : Nat) (x : Slot) : (s.writeSlot k x).slots = s.slots.set k x := rfl
@[simp] theorem State.writeSlot_setupDone (s : State) (k : Nat) (x : Slot) : (s.writeSlot k x).setupDone = s.setupDone := rfl
@[simp] theorem State.writeSlot_faBuf (s : State) (k : Nat) (x : Slot) : (s.writeSlot k x).faBuf = s.faBuf := rfl
@[simp] theorem State.writeSlot_faIdx (s : State) (k : Nat) (x : Slot) : (s.writeSlot k x).faIdx = s.faIdx := rfl
@[simp] theorem State.writeSlot_phase (s : State) (k : Nat) (x : Slot) : (s.writeSlot k x).phase = s.phase := rfl
@[simp] theorem State.writeSlot_resp (s : State) (k : Nat) (x : Slot) : (s.writeSlot k x).resp = s.resp := rfl
@[simp] theorem State.writeSlot_txPos (s : State) (k : Nat) (x : Slot) : (s.writeSlot k x).txPos = s.txPos := rfl
@[simp] theorem State.writeSlot_crcAcc (s : State) (k : Nat) (x : Slot) : (s.writeSlot k x).crcAcc = s.crcAcc := rfl
@[simp] theorem State.writeSlot_pendingClear (s : State) (k : Nat) (x : Slot) : (s.writeSlot k x).pendingClear = s.pendingClear := rfl
@[simp] theorem State.writeSlot_de (s : State) (k : Nat) (x : Slot) : (s.writeSlot k x).de = s.de := rfl
@[simp] theorem State.writeSlot_refused (s : State) (k : Nat) (x : Slot) : (s.writeSlot k x).refused = s.refused := rfl
@[simp] theorem State.writeSlot_txReady (s : State) (k : Nat) (x : Slot) : (s.writeSlot k x).txReady = s.txReady := rfl
@[simp] theorem State.writeSlot_txc (s : State) (k : Nat) (x : Slot) : (s.writeSlot k x).txc = s.txc := rfl
@[simp] theorem State.writeSlot_uart (s : State) (k : Nat) (x : Slot) : (s.writeSlot k x).uart = s.uart := rfl
@[simp] theorem State.writeSlot_inputs (s : State) (k : Nat) (x : Slot) : (s.writeSlot k x).inputs = s.inputs := rfl
@[simp] theorem State.writeSlot_outs (s : State) (k : Nat) (x : Slot) : (s.writeSlot k x).outs = s.outs := rfl
@[simp] theorem State.writeSlot_drops (s : State) (k : Nat) (x : Slot) : (s.writeSlot k x).drops = s.drops := rfl
@[simp] theorem State.writeSlot_refusals (s : State) (k : Nat) (x : Slot) : (s.writeSlot k x).refusals = s.refusals := rfl

@[simp] theorem State.setPendingClear_params (s : State) (k : Option Nat) : (s.setPendingClear k).params = s.params := rfl
@[simp] theorem State.setPendingClear_slots (s : State) (k : Option Nat) : (s.setPendingClear k).slots = s.slots := rfl
@[simp] theorem State.setPendingClear_setupDone (s : State) (k : Option Nat) : (s.setPendingClear k).setupDone = s.setupDone := rfl
@[simp] theorem State.setPendingClear_faBuf (s : State) (k : Option Nat) : (s.setPendingClear k).faBuf = s.faBuf := rfl
@[simp] theorem State.setPendingClear_faIdx (s : State) (k : Option Nat) : (s.setPendingClear k).faIdx = s.faIdx := rfl
@[simp] theorem State.setPendingClear_phase (s : State) (k : Option Nat) : (s.setPendingClear k).phase = s.phase := rfl
@[simp] theorem State.setPendingClear_resp (s : State) (k : Option Nat) : (s.setPendingClear k).resp = s.resp := rfl
@[simp] theorem State.setPendingClear_txPos (s : State) (k : Option Nat) : (s.setPendingClear k).txPos = s.txPos := rfl
@[simp] theorem State.setPendingClear_crcAcc (s : State) (k : Option Nat) : (s.setPendingClear k).crcAcc = s.crcAcc := rfl
@[simp] theorem State.setPendingClear_pendingClear (s : State) (k : Option Nat) : (s.setPendingClear k).pendingClear = k := rfl
@[simp] theorem State.setPendingClear_de (s : State) (k : Option Nat) : (s.setPendingClear k).de = s.de := rfl
@[simp] theorem State.setPendingClear_refused (s : State) (k : Option Nat) : (s.setPendingClear k).refused = s.refused := rfl
@[simp] theorem State.setPendingClear_txReady (s : State) (k : Option Nat) : (s.setPendingClear k).txReady = s.txReady := rfl
@[simp] theorem State.setPendingClear_txc (s : State) (k : Option Nat) : (s.setPendingClear k).txc = s.txc := rfl
@[simp] theorem State.setPendingClear_uart (s : State) (k : Option Nat) : (s.setPendingClear k).uart = s.uart := rfl
@[simp] theorem State.setPendingClear_inputs (s : State) (k : Option Nat) : (s.setPendingClear k).inputs = s.inputs := rfl
@[simp] theorem State.setPendingClear_outs (s : State) (k : Option Nat) : (s.setPendingClear k).outs = s.outs := rfl
@[simp] theorem State.setPendingClear_drops (s : State) (k : Option Nat) : (s.setPendingClear k).drops = s.drops := rfl
@[simp] theorem State.setPendingClear_refusals (s : State) (k : Option Nat) : (s.setPendingClear k).refusals = s.refusals := rfl

@[simp] theorem State.setResp_params (s : State) (body : List Byte) : (s.setResp body).params = s.params := rfl
@[simp] theorem State.setResp_slots (s : State) (body : List Byte) : (s.setResp body).slots = s.slots := rfl
@[simp] theorem State.setResp_setupDone (s : State) (body : List Byte) : (s.setResp body).setupDone = s.setupDone := rfl
@[simp] theorem State.setResp_faBuf (s : State) (body : List Byte) : (s.setResp body).faBuf = s.faBuf := rfl
@[simp] theorem State.setResp_faIdx (s : State) (body : List Byte) : (s.setResp body).faIdx = s.faIdx := rfl
@[simp] theorem State.setResp_phase (s : State) (body : List Byte) : (s.setResp body).phase = s.phase := rfl
@[simp] theorem State.setResp_resp (s : State) (body : List Byte) : (s.setResp body).resp = body := rfl
@[simp] theorem State.setResp_txPos (s : State) (body : List Byte) : (s.setResp body).txPos = s.txPos := rfl
@[simp] theorem State.setResp_crcAcc (s : State) (body : List Byte) : (s.setResp body).crcAcc = s.crcAcc := rfl
@[simp] theorem State.setResp_pendingClear (s : State) (body : List Byte) : (s.setResp body).pendingClear = s.pendingClear := rfl
@[simp] theorem State.setResp_de (s : State) (body : List Byte) : (s.setResp body).de = s.de := rfl
@[simp] theorem State.setResp_refused (s : State) (body : List Byte) : (s.setResp body).refused = s.refused := rfl
@[simp] theorem State.setResp_txReady (s : State) (body : List Byte) : (s.setResp body).txReady = s.txReady := rfl
@[simp] theorem State.setResp_txc (s : State) (body : List Byte) : (s.setResp body).txc = s.txc := rfl
@[simp] theorem State.setResp_uart (s : State) (body : List Byte) : (s.setResp body).uart = s.uart := rfl
@[simp] theorem State.setResp_inputs (s : State) (body : List Byte) : (s.setResp body).inputs = s.inputs := rfl
@[simp] theorem State.setResp_outs (s : State) (body : List Byte) : (s.setResp body).outs = s.outs := rfl
@[simp] theorem State.setResp_drops (s : State) (body : List Byte) : (s.setResp body).drops = s.drops := rfl
@[simp] theorem State.setResp_refusals (s : State) (body : List Byte) : (s.setResp body).refusals = s.refusals := rfl

@[simp] theorem State.configureUart_params (s : State) : (s.configureUart).params = s.params := rfl
@[simp] theorem State.configureUart_slots (s : State) : (s.configureUart).slots = s.slots := rfl
@[simp] theorem State.configureUart_setupDone (s : State) : (s.configureUart).setupDone = s.setupDone := rfl
@[simp] theorem State.configureUart_faBuf (s : State) : (s.configureUart).faBuf = s.faBuf := rfl
@[simp] theorem State.configureUart_faIdx (s : State) : (s.configureUart).faIdx = s.faIdx := rfl
@[simp] theorem State.configureUart_phase (s : State) : (s.configureUart).phase = s.phase := rfl
@[simp] theorem State.configureUart_resp (s : State) : (s.configureUart).resp = s.resp := rfl
@[simp] theorem State.configureUart_txPos (s : State) : (s.configureUart).txPos = s.txPos := rfl
@[simp] theorem State.configureUart_crcAcc (s : State) : (s.configureUart).crcAcc = s.crcAcc := rfl
@[simp] theorem State.configureUart_pendingClear (s : State) : (s.configureUart).pendingClear = s.pendingClear := rfl
@[simp] theorem State.configureUart_de (s : State) : (s.configureUart).de = s.de := rfl
@[simp] theorem State.configureUart_refused (s : State) : (s.configureUart).refused = s.refused := rfl
@[simp] theorem State.configureUart_txReady (s : State) : (s.configureUart).txReady = s.txReady := rfl
@[simp] theorem State.configureUart_txc (s : State) : (s.configureUart).txc = s.txc := rfl
@[simp] theorem State.configureUart_uart (s : State) : (s.configureUart).uart = some s.params.uartCfg := rfl
@[simp] theorem State.configureUart_inputs (s : State) : (s.configureUart).inputs = s.inputs := rfl
@[simp] theorem State.configureUart_outs (s : State) : (s.configureUart).outs = s.outs := rfl
@[simp] theorem State.configureUart_drops (s : State) : (s.configureUart).drops = s.drops := rfl
@[simp] theorem State.configureUart_refusals (s : State) : (s.configureUart).refusals = s.refusals := rfl

@[simp] theorem State.doSetup_params (s : State) : (s.doSetup).params = s.params := rfl
@[simp] theorem State.doSetup_slots (s : State) : (s.doSetup).slots = s.slots := rfl
@[simp] theorem State.doSetup_setupDone (s : State) : (s.doSetup).setupDone = true := rfl
@[simp] theorem State.doSetup_faBuf (s : State) : (s.doSetup).faBuf = s.faBuf := rfl
@[simp] theorem State.doSetup_faIdx (s : State) : (s.doSetup).faIdx = s.faIdx := rfl
@[simp] theorem State.doSetup_phase (s : State) : (s.doSetup).phase = .listen := rfl
@[simp] theorem State.doSetup_resp (s : State) : (s.doSetup).resp = s.resp := rfl
@[simp] theorem State.doSetup_txPos (s : State) : (s.doSetup).txPos = s.txPos := rfl
@[simp] theorem State.doSetup_crcAcc (s : State) : (s.doSetup).crcAcc = s.crcAcc := rfl
@[simp] theorem State.doSetup_pendingClear (s : State) : (s.doSetup).pendingClear = s.pendingClear := rfl
@[simp] theorem State.doSetup_de (s : State) : (s.doSetup).de = .rx := rfl
@[simp] theorem State.doSetup_refused (s : State) : (s.doSetup).refused = s.refused := rfl
@[simp] theorem State.doSetup_txReady (s : State) : (s.doSetup).txReady = s.txReady := rfl
@[simp] theorem State.doSetup_txc (s : State) : (s.doSetup).txc = s.txc := rfl
@[simp] theorem State.doSetup_uart (s : State) : (s.doSetup).uart = some s.params.uartCfg := rfl
@[simp] theorem State.doSetup_inputs (s : State) : (s.doSetup).inputs = s.inputs := rfl
@[simp] theorem State.doSetup_outs (s : State) : (s.doSetup).outs = s.outs ++ [.uartConfigure s.params.uartCfg] := rfl
@[simp] theorem State.doSetup_drops (s : State) : (s.doSetup).drops = s.drops := rfl
@[simp] theorem State.doSetup_refusals (s : State) : (s.doSetup).refusals = s.refusals := rfl

@[simp] theorem State.finishSilent_params (s : State) (t : DropTag) : (s.finishSilent t).params = s.params := rfl
@[simp] theorem State.finishSilent_slots (s : State) (t : DropTag) : (s.finishSilent t).slots = s.slots := rfl
@[simp] theorem State.finishSilent_setupDone (s : State) (t : DropTag) : (s.finishSilent t).setupDone = s.setupDone := rfl
@[simp] theorem State.finishSilent_faBuf (s : State) (t : DropTag) : (s.finishSilent t).faBuf = s.faBuf := rfl
@[simp] theorem State.finishSilent_faIdx (s : State) (t : DropTag) : (s.finishSilent t).faIdx = 0 := rfl
@[simp] theorem State.finishSilent_phase (s : State) (t : DropTag) : (s.finishSilent t).phase = s.phase := rfl
@[simp] theorem State.finishSilent_resp (s : State) (t : DropTag) : (s.finishSilent t).resp = s.resp := rfl
@[simp] theorem State.finishSilent_txPos (s : State) (t : DropTag) : (s.finishSilent t).txPos = s.txPos := rfl
@[simp] theorem State.finishSilent_crcAcc (s : State) (t : DropTag) : (s.finishSilent t).crcAcc = s.crcAcc := rfl
@[simp] theorem State.finishSilent_pendingClear (s : State) (t : DropTag) : (s.finishSilent t).pendingClear = s.pendingClear := rfl
@[simp] theorem State.finishSilent_de (s : State) (t : DropTag) : (s.finishSilent t).de = s.de := rfl
@[simp] theorem State.finishSilent_refused (s : State) (t : DropTag) : (s.finishSilent t).refused = s.refused := rfl
@[simp] theorem State.finishSilent_txReady (s : State) (t : DropTag) : (s.finishSilent t).txReady = s.txReady := rfl
@[simp] theorem State.finishSilent_txc (s : State) (t : DropTag) : (s.finishSilent t).txc = s.txc := rfl
@[simp] theorem State.finishSilent_uart (s : State) (t : DropTag) : (s.finishSilent t).uart = s.uart := rfl
@[simp] theorem State.finishSilent_inputs (s : State) (t : DropTag) : (s.finishSilent t).inputs = s.inputs := rfl
@[simp] theorem State.finishSilent_outs (s : State) (t : DropTag) : (s.finishSilent t).outs = s.outs := rfl
@[simp] theorem State.finishSilent_drops (s : State) (t : DropTag) : (s.finishSilent t).drops = s.drops ++ [t] := rfl
@[simp] theorem State.finishSilent_refusals (s : State) (t : DropTag) : (s.finishSilent t).refusals = s.refusals := rfl

@[simp] theorem State.startReply_params (s : State) (body : List Byte) (clr : Option Nat) : (s.startReply body clr).params = s.params := rfl
@[simp] theorem State.startReply_slots (s : State) (body : List Byte) (clr : Option Nat) : (s.startReply body clr).slots = s.slots := rfl
@[simp] theorem State.startReply_setupDone (s : State) (body : List Byte) (clr : Option Nat) : (s.startReply body clr).setupDone = s.setupDone := rfl
@[simp] theorem State.startReply_faBuf (s : State) (body : List Byte) (clr : Option Nat) : (s.startReply body clr).faBuf = s.faBuf := rfl
@[simp] theorem State.startReply_faIdx (s : State) (body : List Byte) (clr : Option Nat) : (s.startReply body clr).faIdx = s.faIdx := rfl
@[simp] theorem State.startReply_phase (s : State) (body : List Byte) (clr : Option Nat) : (s.startReply body clr).phase = .txTurn := rfl
@[simp] theorem State.startReply_resp (s : State) (body : List Byte) (clr : Option Nat) : (s.startReply body clr).resp = body := rfl
@[simp] theorem State.startReply_txPos (s : State) (body : List Byte) (clr : Option Nat) : (s.startReply body clr).txPos = s.txPos := rfl
@[simp] theorem State.startReply_crcAcc (s : State) (body : List Byte) (clr : Option Nat) : (s.startReply body clr).crcAcc = s.crcAcc := rfl
@[simp] theorem State.startReply_pendingClear (s : State) (body : List Byte) (clr : Option Nat) : (s.startReply body clr).pendingClear = clr := rfl
@[simp] theorem State.startReply_de (s : State) (body : List Byte) (clr : Option Nat) : (s.startReply body clr).de = .tx := rfl
@[simp] theorem State.startReply_refused (s : State) (body : List Byte) (clr : Option Nat) : (s.startReply body clr).refused = s.refused := rfl
@[simp] theorem State.startReply_txReady (s : State) (body : List Byte) (clr : Option Nat) : (s.startReply body clr).txReady = s.txReady := rfl
@[simp] theorem State.startReply_txc (s : State) (body : List Byte) (clr : Option Nat) : (s.startReply body clr).txc = s.txc := rfl
@[simp] theorem State.startReply_uart (s : State) (body : List Byte) (clr : Option Nat) : (s.startReply body clr).uart = s.uart := rfl
@[simp] theorem State.startReply_inputs (s : State) (body : List Byte) (clr : Option Nat) : (s.startReply body clr).inputs = s.inputs := rfl
@[simp] theorem State.startReply_outs (s : State) (body : List Byte) (clr : Option Nat) : (s.startReply body clr).outs = s.outs := rfl
@[simp] theorem State.startReply_drops (s : State) (body : List Byte) (clr : Option Nat) : (s.startReply body clr).drops = s.drops := rfl
@[simp] theorem State.startReply_refusals (s : State) (body : List Byte) (clr : Option Nat) : (s.startReply body clr).refusals = s.refusals := rfl

@[simp] theorem State.setCursor_params (s : State) (c : Crc) (i : Nat) : (s.setCursor c i).params = s.params := rfl
@[simp] theorem State.setCursor_slots (s : State) (c : Crc) (i : Nat) : (s.setCursor c i).slots = s.slots := rfl
@[simp] theorem State.setCursor_setupDone (s : State) (c : Crc) (i : Nat) : (s.setCursor c i).setupDone = s.setupDone := rfl
@[simp] theorem State.setCursor_faBuf (s : State) (c : Crc) (i : Nat) : (s.setCursor c i).faBuf = s.faBuf := rfl
@[simp] theorem State.setCursor_faIdx (s : State) (c : Crc) (i : Nat) : (s.setCursor c i).faIdx = s.faIdx := rfl
@[simp] theorem State.setCursor_phase (s : State) (c : Crc) (i : Nat) : (s.setCursor c i).phase = s.phase := rfl
@[simp] theorem State.setCursor_resp (s : State) (c : Crc) (i : Nat) : (s.setCursor c i).resp = s.resp := rfl
@[simp] theorem State.setCursor_txPos (s : State) (c : Crc) (i : Nat) : (s.setCursor c i).txPos = i := rfl
@[simp] theorem State.setCursor_crcAcc (s : State) (c : Crc) (i : Nat) : (s.setCursor c i).crcAcc = c := rfl
@[simp] theorem State.setCursor_pendingClear (s : State) (c : Crc) (i : Nat) : (s.setCursor c i).pendingClear = s.pendingClear := rfl
@[simp] theorem State.setCursor_de (s : State) (c : Crc) (i : Nat) : (s.setCursor c i).de = s.de := rfl
@[simp] theorem State.setCursor_refused (s : State) (c : Crc) (i : Nat) : (s.setCursor c i).refused = s.refused := rfl
@[simp] theorem State.setCursor_txReady (s : State) (c : Crc) (i : Nat) : (s.setCursor c i).txReady = s.txReady := rfl
@[simp] theorem State.setCursor_txc (s : State) (c : Crc) (i : Nat) : (s.setCursor c i).txc = s.txc := rfl
@[simp] theorem State.setCursor_uart (s : State) (c : Crc) (i : Nat) : (s.setCursor c i).uart = s.uart := rfl
@[simp] theorem State.setCursor_inputs (s : State) (c : Crc) (i : Nat) : (s.setCursor c i).inputs = s.inputs := rfl
@[simp] theorem State.setCursor_outs (s : State) (c : Crc) (i : Nat) : (s.setCursor c i).outs = s.outs := rfl
@[simp] theorem State.setCursor_drops (s : State) (c : Crc) (i : Nat) : (s.setCursor c i).drops = s.drops := rfl
@[simp] theorem State.setCursor_refusals (s : State) (c : Crc) (i : Nat) : (s.setCursor c i).refusals = s.refusals := rfl

@[simp] theorem State.withInputs_params (s : State) (xs : List Input) : (s.withInputs xs).params = s.params := rfl
@[simp] theorem State.withInputs_slots (s : State) (xs : List Input) : (s.withInputs xs).slots = s.slots := rfl
@[simp] theorem State.withInputs_setupDone (s : State) (xs : List Input) : (s.withInputs xs).setupDone = s.setupDone := rfl
@[simp] theorem State.withInputs_faBuf (s : State) (xs : List Input) : (s.withInputs xs).faBuf = s.faBuf := rfl
@[simp] theorem State.withInputs_faIdx (s : State) (xs : List Input) : (s.withInputs xs).faIdx = s.faIdx := rfl
@[simp] theorem State.withInputs_phase (s : State) (xs : List Input) : (s.withInputs xs).phase = s.phase := rfl
@[simp] theorem State.withInputs_resp (s : State) (xs : List Input) : (s.withInputs xs).resp = s.resp := rfl
@[simp] theorem State.withInputs_txPos (s : State) (xs : List Input) : (s.withInputs xs).txPos = s.txPos := rfl
@[simp] theorem State.withInputs_crcAcc (s : State) (xs : List Input) : (s.withInputs xs).crcAcc = s.crcAcc := rfl
@[simp] theorem State.withInputs_pendingClear (s : State) (xs : List Input) : (s.withInputs xs).pendingClear = s.pendingClear := rfl
@[simp] theorem State.withInputs_de (s : State) (xs : List Input) : (s.withInputs xs).de = s.de := rfl
@[simp] theorem State.withInputs_refused (s : State) (xs : List Input) : (s.withInputs xs).refused = s.refused := rfl
@[simp] theorem State.withInputs_txReady (s : State) (xs : List Input) : (s.withInputs xs).txReady = s.txReady := rfl
@[simp] theorem State.withInputs_txc (s : State) (xs : List Input) : (s.withInputs xs).txc = s.txc := rfl
@[simp] theorem State.withInputs_uart (s : State) (xs : List Input) : (s.withInputs xs).uart = s.uart := rfl
@[simp] theorem State.withInputs_inputs (s : State) (xs : List Input) : (s.withInputs xs).inputs = xs := rfl
@[simp] theorem State.withInputs_outs (s : State) (xs : List Input) : (s.withInputs xs).outs = s.outs := rfl
@[simp] theorem State.withInputs_drops (s : State) (xs : List Input) : (s.withInputs xs).drops = s.drops := rfl
@[simp] theorem State.withInputs_refusals (s : State) (xs : List Input) : (s.withInputs xs).refusals = s.refusals := rfl

@[simp] theorem State.holding_params (s : State) (bs : List Byte) : (s.holding bs).params = s.params := rfl
@[simp] theorem State.holding_slots (s : State) (bs : List Byte) : (s.holding bs).slots = s.slots := rfl
@[simp] theorem State.holding_setupDone (s : State) (bs : List Byte) : (s.holding bs).setupDone = s.setupDone := rfl
@[simp] theorem State.holding_faBuf (s : State) (bs : List Byte) : (s.holding bs).faBuf = bs ++ s.faBuf.drop bs.length := rfl
@[simp] theorem State.holding_faIdx (s : State) (bs : List Byte) : (s.holding bs).faIdx = bs.length := rfl
@[simp] theorem State.holding_phase (s : State) (bs : List Byte) : (s.holding bs).phase = .listen := rfl
@[simp] theorem State.holding_resp (s : State) (bs : List Byte) : (s.holding bs).resp = s.resp := rfl
@[simp] theorem State.holding_txPos (s : State) (bs : List Byte) : (s.holding bs).txPos = s.txPos := rfl
@[simp] theorem State.holding_crcAcc (s : State) (bs : List Byte) : (s.holding bs).crcAcc = s.crcAcc := rfl
@[simp] theorem State.holding_pendingClear (s : State) (bs : List Byte) : (s.holding bs).pendingClear = s.pendingClear := rfl
@[simp] theorem State.holding_de (s : State) (bs : List Byte) : (s.holding bs).de = s.de := rfl
@[simp] theorem State.holding_refused (s : State) (bs : List Byte) : (s.holding bs).refused = s.refused := rfl
@[simp] theorem State.holding_txReady (s : State) (bs : List Byte) : (s.holding bs).txReady = s.txReady := rfl
@[simp] theorem State.holding_txc (s : State) (bs : List Byte) : (s.holding bs).txc = s.txc := rfl
@[simp] theorem State.holding_uart (s : State) (bs : List Byte) : (s.holding bs).uart = s.uart := rfl
@[simp] theorem State.holding_inputs (s : State) (bs : List Byte) : (s.holding bs).inputs = s.inputs := rfl
@[simp] theorem State.holding_outs (s : State) (bs : List Byte) : (s.holding bs).outs = s.outs := rfl
@[simp] theorem State.holding_drops (s : State) (bs : List Byte) : (s.holding bs).drops = s.drops := rfl
@[simp] theorem State.holding_refusals (s : State) (bs : List Byte) : (s.holding bs).refusals = s.refusals := rfl

@[simp] theorem State.hardReset_params (s : State) : (s.hardReset).params = s.params := rfl
@[simp] theorem State.hardReset_slots (s : State) : (s.hardReset).slots = List.replicate s.params.nSlots Slot.free := rfl
@[simp] theorem State.hardReset_setupDone (s : State) : (s.hardReset).setupDone = false := rfl
@[simp] theorem State.hardReset_faBuf (s : State) : (s.hardReset).faBuf = List.replicate s.params.maxReq 0 := rfl
@[simp] theorem State.hardReset_faIdx (s : State) : (s.hardReset).faIdx = 0 := rfl
@[simp] theorem State.hardReset_phase (s : State) : (s.hardReset).phase = .off := rfl
@[simp] theorem State.hardReset_resp (s : State) : (s.hardReset).resp = [] := rfl
@[simp] theorem State.hardReset_txPos (s : State) : (s.hardReset).txPos = 0 := rfl
@[simp] theorem State.hardReset_crcAcc (s : State) : (s.hardReset).crcAcc = 0 := rfl
@[simp] theorem State.hardReset_pendingClear (s : State) : (s.hardReset).pendingClear = none := rfl
@[simp] theorem State.hardReset_de (s : State) : (s.hardReset).de = .undriven := rfl
@[simp] theorem State.hardReset_refused (s : State) : (s.hardReset).refused = false := rfl
@[simp] theorem State.hardReset_txReady (s : State) : (s.hardReset).txReady = s.txReady := rfl
@[simp] theorem State.hardReset_txc (s : State) : (s.hardReset).txc = s.txc := rfl
@[simp] theorem State.hardReset_uart (s : State) : (s.hardReset).uart = none := rfl
@[simp] theorem State.hardReset_inputs (s : State) : (s.hardReset).inputs = s.inputs := rfl
@[simp] theorem State.hardReset_outs (s : State) : (s.hardReset).outs = s.outs := rfl
@[simp] theorem State.hardReset_drops (s : State) : (s.hardReset).drops = s.drops := rfl
@[simp] theorem State.hardReset_refusals (s : State) : (s.hardReset).refusals = s.refusals := rfl

@[simp] theorem State.drivePin_txReady (s : State) (v : Bool) : s.drivePin (.txReady v) = s.driveTxReady v := rfl
@[simp] theorem State.drivePin_txcRise (s : State) : s.drivePin .txcRise = s.raiseTxc := rfl
@[simp] theorem State.drivePin_params (s : State) (p : Pin) : (s.drivePin p).params = s.params := by cases p <;> rfl
@[simp] theorem State.drivePin_slots (s : State) (p : Pin) : (s.drivePin p).slots = s.slots := by cases p <;> rfl
@[simp] theorem State.drivePin_setupDone (s : State) (p : Pin) : (s.drivePin p).setupDone = s.setupDone := by cases p <;> rfl
@[simp] theorem State.drivePin_faBuf (s : State) (p : Pin) : (s.drivePin p).faBuf = s.faBuf := by cases p <;> rfl
@[simp] theorem State.drivePin_faIdx (s : State) (p : Pin) : (s.drivePin p).faIdx = s.faIdx := by cases p <;> rfl
@[simp] theorem State.drivePin_phase (s : State) (p : Pin) : (s.drivePin p).phase = s.phase := by cases p <;> rfl
@[simp] theorem State.drivePin_resp (s : State) (p : Pin) : (s.drivePin p).resp = s.resp := by cases p <;> rfl
@[simp] theorem State.drivePin_txPos (s : State) (p : Pin) : (s.drivePin p).txPos = s.txPos := by cases p <;> rfl
@[simp] theorem State.drivePin_crcAcc (s : State) (p : Pin) : (s.drivePin p).crcAcc = s.crcAcc := by cases p <;> rfl
@[simp] theorem State.drivePin_pendingClear (s : State) (p : Pin) : (s.drivePin p).pendingClear = s.pendingClear := by cases p <;> rfl
@[simp] theorem State.drivePin_de (s : State) (p : Pin) : (s.drivePin p).de = s.de := by cases p <;> rfl
@[simp] theorem State.drivePin_refused (s : State) (p : Pin) : (s.drivePin p).refused = s.refused := by cases p <;> rfl
@[simp] theorem State.drivePin_uart (s : State) (p : Pin) : (s.drivePin p).uart = s.uart := by cases p <;> rfl
@[simp] theorem State.drivePin_inputs (s : State) (p : Pin) : (s.drivePin p).inputs = s.inputs := by cases p <;> rfl
@[simp] theorem State.drivePin_outs (s : State) (p : Pin) : (s.drivePin p).outs = s.outs := by cases p <;> rfl
@[simp] theorem State.drivePin_drops (s : State) (p : Pin) : (s.drivePin p).drops = s.drops := by cases p <;> rfl
@[simp] theorem State.drivePin_refusals (s : State) (p : Pin) : (s.drivePin p).refusals = s.refusals := by cases p <;> rfl

@[simp] theorem State.withInputs_withInputs (s : State) (xs ys : List Input) : (s.withInputs xs).withInputs ys = s.withInputs ys := rfl

end Sys2Proof.Machine
end

