-- ==== Sys2Proof/Laws/Ops.lean ====
section
/-! SUPPORT. One lemma per shared operation that says once everything it can do, to be cited instead of unfolding it. -/

namespace Sys2Proof.Machine

open Host

-- Enabling.

theorem State.hostReady_iff (s : State) : s.hostReady = true ↔ s.phase = .off ∨ s.phase = .listen := by
  simp [State.hostReady]

theorem State.rxReady_iff (s : State) : s.rxReady = true ↔ s.phase = .listen := by
  simp [State.rxReady]

theorem State.takeIf_of_enabled {s : State} {e : Bool} (h : e = true) (f : State → State) :
    s.takeIf e f = .next (f s) := by simp [State.takeIf, h]

theorem State.takeIf_of_not_enabled {s : State} {e : Bool} (h : e = false) (f : State → State) :
    s.takeIf e f = .next s := by simp [State.takeIf, h]

/-- An input has its effect where it is enabled, and none elsewhere. -/
theorem State.takeIf_cases {s t : State} {e : Bool} {f : State → State} (h : s.takeIf e f = .next t) :
    (e = true ∧ t = f s) ∨ (e = false ∧ t = s) := by
  cases e <;> simp_all [State.takeIf]

-- The response buffer.

theorem respAppend_length_le {max : Nat} {resp : List Byte} (b : Byte) (h : resp.length ≤ max) :
    (respAppend max resp b).length ≤ max := by
  unfold respAppend
  split
  · simp; omega
  · exact h

/-- Appending byte by byte keeps what fits. -/
theorem respAppendAll_eq_take (max : Nat) (bs resp : List Byte) (h : resp.length ≤ max) :
    respAppendAll max resp bs = (resp ++ bs).take max := by
  induction bs generalizing resp with
  | nil => simp [respAppendAll, List.take_of_length_le h]
  | cons b bs ih =>
    have step : respAppendAll max resp (b :: bs) = respAppendAll max (respAppend max resp b) bs := rfl
    rw [step, ih _ (respAppend_length_le b h)]
    unfold respAppend
    split
    · simp
    · have : resp.length = max := by omega
      simp [this]

/-- Appending one text after another appends both, cut once. -/
theorem respAppendAll_take (max : Nat) (xs ys : List Byte) :
    respAppendAll max (xs.take max) ys = (xs ++ ys).take max := by
  rw [respAppendAll_eq_take _ _ _ (by simp)]
  simp only [List.take_append, List.length_take, List.take_take, Nat.min_self]
  congr 2
  omega

theorem respAppend_eq_all (max : Nat) (resp : List Byte) (b : Byte) :
    respAppend max resp b = respAppendAll max resp [b] := rfl

theorem quoteAppendAll_eq_all (max : Nat) (bs resp : List Byte) :
    quoteAppendAll max resp bs = respAppendAll max resp (quote bs) := by
  induction bs generalizing resp with
  | nil => rfl
  | cons b bs ih =>
    have step : quoteAppendAll max resp (b :: bs) = quoteAppendAll max (quoteAppend max resp b) bs := rfl
    rw [step, ih]
    simp [quote, quoteAppend, respAppendAll, List.foldl_append]

-- Frames.

theorem Opcode.byte_eq_upperD (op : Opcode) : op.byte = Ascii.upperD ↔ op = .discover := by
  cases op <;> simp [Opcode.byte]

/-- A frame has the shape of R170 exactly when it is the 10 bytes of a request. -/
theorem splitFrame_eq_ok {bs : List Byte} {op : Opcode} {r : Request} :
    splitFrame bs = .ok (op, r) ↔ bs = r.bytes op := by
  constructor
  · intro h
    unfold splitFrame at h
    split at h
    · rename_i b0 b1 b2 b3 b4 b5 b6 b7 b8 b9
      dsimp only at h
      repeat' split at h
      all_goals simp_all [Request.bytes, Request.covered, Opcode.byte]
      all_goals (obtain ⟨rfl, rfl⟩ := h; simp_all)
    · cases h
  · rintro rfl
    cases op <;> simp [splitFrame, Request.bytes, Request.covered, Opcode.byte]

@[simp] theorem splitFrame_bytes (op : Opcode) (r : Request) : splitFrame (r.bytes op) = .ok (op, r) :=
  splitFrame_eq_ok.2 rfl

/-- The frame of a request decodes to its instruction. -/
@[simp] theorem decodeFrame_bytes (op : Opcode) (r : Request) : decodeFrame (r.bytes op) = .ok (requestInstr op r) := by
  simp [decodeFrame]

-- Searches.

/-- `lookup`'s scan, from any index on: the first slot with the id, with only occupied slots before it. -/
theorem lookupFrom_eq_some {id : Byte} {slots : List Slot} {i k : Nat} {x : Slot} :
    lookupFrom id i slots = some (k, x) ↔
      i ≤ k ∧ slots[k - i]? = some x ∧ x.desc ≠ [] ∧ x.devId = id ∧
        ∀ j < k - i, ∃ y, slots[j]? = some y ∧ y.desc ≠ [] ∧ y.devId ≠ id := by
  induction slots generalizing i with
  | nil => simp [lookupFrom]
  | cons y ys ih =>
    unfold lookupFrom
    by_cases hfree : y.desc = []
    · simp only [hfree, if_true]
      constructor
      · intro h; cases h
      · rintro ⟨hik, hx, hd, -, hall⟩
        exfalso
        rcases Nat.eq_zero_or_pos (k - i) with h0 | hpos
        · rw [h0] at hx; simp only [List.getElem?_cons_zero, Option.some.injEq] at hx
          exact hd (hx ▸ hfree)
        · obtain ⟨z, hz, hzd, -⟩ := hall 0 hpos
          simp only [List.getElem?_cons_zero, Option.some.injEq] at hz
          exact hzd (hz ▸ hfree)
    · by_cases hid : y.devId = id
      · simp only [hfree, if_false, hid, if_true, Option.some.injEq, Prod.mk.injEq]
        constructor
        · rintro ⟨rfl, rfl⟩
          exact ⟨Nat.le_refl _, by simp, hfree, hid, by intro j hj; omega⟩
        · rintro ⟨hik, hx, hd, hxid, hall⟩
          rcases Nat.eq_zero_or_pos (k - i) with h0 | hpos
          · rw [h0] at hx; simp only [List.getElem?_cons_zero, Option.some.injEq] at hx
            exact ⟨by omega, hx⟩
          · obtain ⟨z, hz, -, hzid⟩ := hall 0 hpos
            simp only [List.getElem?_cons_zero, Option.some.injEq] at hz
            exact absurd (hz ▸ hid) hzid
      · simp only [hfree, if_false, hid]
        rw [ih]
        constructor
        · rintro ⟨hik, hx, hd, hxid, hall⟩
          have hk : k - i = (k - (i + 1)) + 1 := by omega
          refine ⟨by omega, by rw [hk]; simpa using hx, hd, hxid, ?_⟩
          intro j hj
          cases j with
          | zero => exact ⟨y, by simp, hfree, hid⟩
          | succ j => obtain ⟨z, hz, h⟩ := hall j (by omega); exact ⟨z, by simpa using hz, h⟩
        · rintro ⟨hik, hx, hd, hxid, hall⟩
          rcases Nat.eq_zero_or_pos (k - i) with h0 | hpos
          · rw [h0] at hx; simp only [List.getElem?_cons_zero, Option.some.injEq] at hx
            exact absurd (hx ▸ hxid) hid
          · have hk : k - i = (k - (i + 1)) + 1 := by omega
            refine ⟨by omega, by rw [hk] at hx; simpa using hx, hd, hxid, ?_⟩
            intro j hj
            obtain ⟨z, hz, h⟩ := hall (j + 1) (by omega)
            exact ⟨z, by simpa using hz, h⟩

/-- What `lookup` finds is an occupied slot of the registry with the id. -/
theorem lookup_some {id : Byte} {slots : List Slot} {k : Nat} {x : Slot} (h : lookup id slots = some (k, x)) :
    slots[k]? = some x ∧ x.desc ≠ [] ∧ x.devId = id := by
  obtain ⟨-, hx, hd, hid, -⟩ := lookupFrom_eq_some.1 h
  exact ⟨by simpa using hx, hd, hid⟩

/-- What `find_slot` finds is a slot of the registry, free or with the id, behind occupied slots with other ids. -/
theorem findSlot_some {id : Byte} {slots : List Slot} {k : Nat} (h : findSlot id slots = some k) :
    (∃ x, slots[k]? = some x ∧ (x.desc = [] ∨ x.devId = id)) ∧
      ∀ i < k, ∃ y, slots[i]? = some y ∧ y.desc ≠ [] ∧ y.devId ≠ id := by
  obtain ⟨hk, hp, hall⟩ := List.findIdx?_eq_some_iff_getElem.1 h
  refine ⟨⟨slots[k], by simp [hk], by simpa using hp⟩, ?_⟩
  intro i hi
  have hi' : i < slots.length := by omega
  have := hall i hi
  exact ⟨slots[i], by simp [hi'], by simpa using this⟩

-- The validator.

/-- All that steps 2 to 6 of validation can do: a silent drop or the start of one reply. -/
theorem State.processRequest_cases (s : State) (op : Opcode) (r : Request) :
    (∃ tag, tag ∈ [DropTag.crcMismatch, .unknownId, .noPendingValue] ∧ s.processRequest op r = s.finishSilent tag) ∨
    ∃ k x, lookup (requestId r) s.slots = some (k, x) ∧
      (op = .discover ∧ s.processRequest op r = s.startReply (encodeDiscovery s.params.maxResp x) none ∨
        op = .poll ∧ x.haveValue = true ∧
          s.processRequest op r = s.startReply (encodePoll s.params.maxResp x) (some k)) := by
  unfold State.processRequest
  by_cases hc : requestCrcOk op r = true
  · simp only [hc, if_true]
    cases op with
    | discover =>
      cases hl : lookup (requestId r) s.slots with
      | none => exact .inl ⟨.unknownId, by simp, by simp [State.discovery, hl]⟩
      | some kx => exact .inr ⟨kx.1, kx.2, rfl, .inl ⟨rfl, by simp [State.discovery, hl]⟩⟩
    | poll =>
      cases hl : lookup (requestId r) s.slots with
      | none => exact .inl ⟨.unknownId, by simp, by simp [State.poll, hl]⟩
      | some kx =>
        by_cases hv : kx.2.haveValue = true
        · exact .inr ⟨kx.1, kx.2, rfl, .inr ⟨rfl, hv, by simp [State.poll, hl, hv]⟩⟩
        · exact .inl ⟨.noPendingValue, by simp, by simp [State.poll, hl, hv]⟩
  · simp only [hc, Bool.false_eq_true, if_false]
    exact .inl ⟨.crcMismatch, by simp, rfl⟩

/-- All that the end of a frame can do. -/
theorem State.endOfFrame_cases (s : State) (bs : List Byte) :
    s.endOfFrame bs = s.finishSilent .frameMalformed ∨
    ∃ op r, bs = r.bytes op ∧ s.endOfFrame bs = s.processRequest op r := by
  unfold State.endOfFrame
  split
  · exact .inl rfl
  · rename_i op r h; exact .inr ⟨op, r, splitFrame_eq_ok.1 h, rfl⟩

theorem State.endOfFrame_bytes (s : State) (op : Opcode) (r : Request) :
    s.endOfFrame (r.bytes op) = s.processRequest op r := by
  unfold State.endOfFrame
  rw [splitFrame_eq_ok.2 rfl]

-- The host commands.

/-- CONFIGURE's operands are refused exactly where one of them is out of range. -/
theorem configureRefusal_eq_none {p : Params} {id : Byte} {poll : Nat} {desc unit : List Byte} :
    configureRefusal p id poll desc unit = none ↔
      id.toNat ≤ 127 ∧ poll < 2 ^ p.pollW ∧ 0 ∉ desc ∧ 0 ∉ unit := by
  unfold configureRefusal
  repeat' split
  all_goals simp_all
  all_goals grind

/-- All that CONFIGURE can do once the port has accepted it. -/
theorem State.configure_cases (s : State) (id : Byte) (poll : Nat) (desc unit : List Byte) :
    (∃ r, configureRefusal s.params id poll desc unit = some r ∧ s.configure id poll desc unit = s.refuse r) ∨
    (∃ tag, tag ∈ [DropTag.configNoDesc, .registryFull] ∧ s.configure id poll desc unit = s.drop tag) ∨
    ∃ k, configureRefusal s.params id poll desc unit = none ∧ desc ≠ [] ∧ findSlot id s.slots = some k ∧
      (s.setupDone = true ∧ s.configure id poll desc unit = s.writeSlot k (configuredSlot id poll desc unit) ∨
        s.setupDone = false ∧
          s.configure id poll desc unit = (s.writeSlot k (configuredSlot id poll desc unit)).doSetup) := by
  unfold State.configure
  cases hr : configureRefusal s.params id poll desc unit with
  | some r => exact .inl ⟨r, rfl, rfl⟩
  | none =>
    by_cases hd : desc = []
    · exact .inr (.inl ⟨.configNoDesc, by simp, by simp [hd]⟩)
    · cases hf : findSlot id s.slots with
      | none => exact .inr (.inl ⟨.registryFull, by simp, by simp [hd]⟩)
      | some k =>
        refine .inr (.inr ⟨k, rfl, hd, rfl, ?_⟩)
        cases hs : s.setupDone
        · exact .inr ⟨rfl, by simp [hd, hs]⟩
        · exact .inl ⟨rfl, by simp [hd, hs]⟩

/-- All that SET_VALUE can do once the port has accepted it. -/
theorem State.setValue_cases (s : State) (id : Byte) (v : Value) :
    (lookup id s.slots = none ∧ s.setValue id v = s.drop .unknownIdSet) ∨
    ∃ k x, lookup id s.slots = some (k, x) ∧ s.setValue id v = s.writeSlot k (x.withValue v) := by
  unfold State.setValue
  cases lookup id s.slots with
  | none => exact .inl ⟨rfl, rfl⟩
  | some kx => exact .inr ⟨kx.1, kx.2, rfl, rfl⟩

-- The transmitter and the end of a reply.

/-- A write that happens: the byte offered, the sequencer's advance, the label, and `txc` cleared. -/
theorem State.transmit_next {s t : State} (h : s.transmit = .next t) :
    ∃ b, s.txByte = some b ∧ t = ((s.advance b).emit (.txWrite b s.de)).clearTxc := by
  unfold State.transmit at h
  split at h
  · rename_i b hb; exact ⟨b, hb, (Outcome.next.inj h).symm⟩
  · cases h

/-- A byte is offered only in a write phase. -/
theorem State.txByte_writing {s : State} {b : Byte} (h : s.txByte = some b) : s.phase.writing = true := by
  unfold State.txByte at h
  unfold Phase.writing
  cases hp : s.phase <;> simp_all

/-- All that writing a byte changes of the sequencer. -/
theorem State.advance_cases {s : State} {b : Byte} (h : s.txByte = some b) :
    (s.phase = .txSync ∧ b = Ascii.sync ∧ s.advance b = (s.setCursor 0 0).setPhase .txBody) ∨
    (s.phase = .txBody ∧ s.resp[s.txPos]? = some b ∧
      (s.txPos + 1 = s.resp.length ∧
          s.advance b = (s.setCursor (crc16Step b s.crcAcc) 0).setPhase .txCrc ∨
        s.txPos + 1 ≠ s.resp.length ∧ s.advance b = s.setCursor (crc16Step b s.crcAcc) (s.txPos + 1))) ∨
    (s.phase = .txCrc ∧ (hex4 s.crcAcc)[s.txPos]? = some b ∧
      (s.txPos = 3 ∧ s.advance b = s.setPhase .txCr ∨
        s.txPos ≠ 3 ∧ s.advance b = s.setCursor s.crcAcc (s.txPos + 1))) ∨
    (s.phase = .txCr ∧ b = Ascii.cr ∧ s.advance b = s.setPhase .txLf) ∨
    (s.phase = .txLf ∧ b = Ascii.lf ∧ s.advance b = s.setPhase .txDrain) := by
  unfold State.txByte at h
  unfold State.advance
  cases hp : s.phase <;> simp_all
  · by_cases hl : s.txPos + 1 = s.resp.length <;> simp [hl]
  · by_cases hl : s.txPos = 3 <;> simp [hl]

/-- The end of a reply, field by field: an equation with a record update. -/
theorem State.endReply_eq (s : State) :
    s.endReply =
      { s with
        slots := match s.pendingClear with
          | some k => s.slots.modify k Slot.delivered
          | none => s.slots
        pendingClear := none, faIdx := 0, de := .rx, phase := .listen } := by
  unfold State.endReply State.consumePendingClear
  cases h : s.pendingClear
  · simp only [State.setFaIdx, State.switchTo, ← h]
  · rfl

-- Fetching and stepping.

theorem State.scan_nil (s : State) : s.scan [] = { state := s, taken := none, rest := [] } := rfl

theorem State.scan_pin (s : State) (p : Pin) (xs : List Input) :
    s.scan (.pin p :: xs) = (s.drivePin p).scan xs := rfl

theorem State.scan_enabled {s : State} {x : Input} (xs : List Input) (hp : x.pinChange = none)
    (h : s.enabled x = true) : s.scan (x :: xs) = { state := s, taken := some x, rest := xs } := by
  simp [State.scan, hp, h]

theorem State.scan_waiting {s : State} {x : Input} (xs : List Input) (h : s.enabled x = false) :
    s.scan (x :: xs) = { s.scan xs with rest := x :: (s.scan xs).rest } := by
  cases x with
  | pin p => cases h
  | host c => simp [State.scan, Input.pinChange, h]
  | rx b => simp [State.scan, Input.pinChange, h]
  | label l => simp [State.scan, Input.pinChange, h]

/-- Inputs that are not enabled stay offered, before what the scan of the others leaves. -/
theorem State.scan_append {s : State} {before : List Input} (xs : List Input)
    (h : ∀ x ∈ before, s.enabled x = false) :
    s.scan (before ++ xs) = { s.scan xs with rest := before ++ (s.scan xs).rest } := by
  induction before with
  | nil => rfl
  | cons y ys ih =>
    rw [List.cons_append, State.scan_waiting _ (h y (by simp)), ih fun x hx => h x (by simp [hx])]
    rfl

theorem State.drivePin_withInputs (s : State) (p : Pin) (ys : List Input) :
    (s.withInputs ys).drivePin p = (s.drivePin p).withInputs ys := by cases p <;> rfl

/-- What is offered besides is not looked at. -/
theorem State.scan_withInputs (s : State) (xs ys : List Input) :
    (s.withInputs ys).scan xs = { s.scan xs with state := (s.scan xs).state.withInputs ys } := by
  induction xs generalizing s with
  | nil => rfl
  | cons x xs ih =>
    cases hp : x.pinChange with
    | some p => simp only [State.scan, hp, State.drivePin_withInputs, ih]
    | none =>
      have he : (s.withInputs ys).enabled x = s.enabled x := by cases x <;> rfl
      by_cases h : s.enabled x = true
      · simp [State.scan, hp, he, h]
      · simp [State.scan, hp, he, h, ih]

/-- All that a scan can do: it changes no field but the pins; what it takes is no pin change and is enabled with the pins
as they then are; and what stays offered was offered. -/
theorem State.scan_spec (s : State) (xs : List Input) :
    (∃ ready txc, (s.scan xs).state = { s with txReady := ready, txc := txc }) ∧
      (∀ x, (s.scan xs).taken = some x →
        x.pinChange = none ∧ (s.scan xs).state.enabled x = true ∧ x ∈ xs) ∧
      (s.scan xs).rest.Sublist xs := by
  induction xs generalizing s with
  | nil => exact ⟨⟨_, _, rfl⟩, by simp [State.scan], by simp [State.scan]⟩
  | cons y ys ih =>
    cases hp : y.pinChange with
    | some p =>
      have e : s.scan (y :: ys) = (s.drivePin p).scan ys := by simp only [State.scan, hp]
      obtain ⟨⟨a, b, h1⟩, h2, h3⟩ := ih (s.drivePin p)
      rw [e]
      refine ⟨?_, fun x hx => ?_, h3.cons _⟩
      · cases p with
        | txReady v => exact ⟨a, b, h1⟩
        | txcRise => exact ⟨a, b, h1⟩
      · obtain ⟨hx1, hx2, hx3⟩ := h2 x hx
        exact ⟨hx1, hx2, List.mem_cons_of_mem _ hx3⟩
    | none =>
      by_cases h : s.enabled y = true
      · rw [State.scan_enabled ys hp h]
        refine ⟨⟨_, _, rfl⟩, fun x hx => ?_, List.sublist_cons_self _ _⟩
        cases hx
        exact ⟨hp, h, by simp⟩
      · obtain ⟨h1, h2, h3⟩ := ih s
        rw [State.scan_waiting ys (by simpa using h)]
        refine ⟨h1, fun x hx => ?_, h3.cons_cons _⟩
        obtain ⟨hx1, hx2, hx3⟩ := h2 x hx
        exact ⟨hx1, hx2, List.mem_cons_of_mem _ hx3⟩

/-- Where nothing is enabled nothing is taken and nothing changes. -/
theorem State.scan_of_none_enabled {s : State} {xs : List Input} (h : ∀ x ∈ xs, s.enabled x = false) :
    s.scan xs = { state := s, taken := none, rest := xs } := by
  have := State.scan_append (s := s) [] h
  simpa [State.scan_nil] using this

/-- Everything a step can be, with `u` the state in which it is taken (the pins as the step sees them, the input it takes
removed): a wait, the meaning of a fetched instruction, or a label's step. -/
theorem step_cases (s : State) :
    ∃ ready txc rest, rest.Sublist s.inputs ∧
      let u : State := { s with txReady := ready, txc := txc, inputs := rest }
      (s.fetch = .wait u ∧ step s = .next u) ∨
      (∃ c, .host c ∈ s.inputs ∧ u.hostReady = true ∧ s.fetch = .instr (decodeCommand c) u ∧
        step s = exec (decodeCommand c) u) ∨
      (∃ b, .rx b ∈ s.inputs ∧ u.rxReady = true ∧ s.fetch = .instr (decodeReceived u.assembler u.frame b) u ∧
        step s = exec (decodeReceived u.assembler u.frame b) u) ∨
      (∃ l, .label l ∈ s.inputs ∧ u.labelEnabled l = true ∧ s.fetch = .label l u ∧ step s = u.onLabel l) := by
  obtain ⟨⟨ready, txc, h1⟩, h2, h3⟩ := State.scan_spec s s.inputs
  refine ⟨ready, txc, _, h3, ?_⟩
  have hu : (s.scan s.inputs).state.withInputs (s.scan s.inputs).rest =
      { s with txReady := ready, txc := txc, inputs := (s.scan s.inputs).rest } := by rw [h1]; rfl
  rw [← hu]
  cases h : (s.scan s.inputs).taken with
  | none => exact .inl ⟨by simp [State.fetch, h], by simp [step, State.fetch, h]⟩
  | some x =>
    obtain ⟨hp, he, hm⟩ := h2 x h
    cases x with
    | host c => exact .inr (.inl ⟨c, hm, he, by simp [State.fetch, h], by simp [step, State.fetch, h]⟩)
    | rx b => exact .inr (.inr (.inl ⟨b, hm, he, by simp [State.fetch, h], by simp [step, State.fetch, h]⟩))
    | label l => exact .inr (.inr (.inr ⟨l, hm, he, by simp [State.fetch, h], by simp [step, State.fetch, h]⟩))
    | pin p => cases hp

end Sys2Proof.Machine
end

