-- ==== Sys2Proof/Laws/Exec.lean ====
section
/-! SUPPORT. What each instruction does, as one equation over the shared operations. -/

namespace Sys2Proof.Machine

theorem exec_rxStart (s : State) :
    exec .rxStart s = s.takeIf (s.rxReady && s.faIdx == 0) fun s => s.storeByte 0 Ascii.question := rfl

theorem exec_rxDiscard (b : Byte) (s : State) : exec (.rxDiscard b) s = .next s := rfl

theorem exec_rxCr (s : State) : exec .rxCr s = .next s := rfl

theorem exec_rxLf (s : State) :
    exec .rxLf s = s.takeIf (s.rxReady && s.faIdx != 0) fun s => s.endOfFrame s.frame := rfl

theorem exec_rxData (b : Byte) (s : State) :
    exec (.rxData b) s =
      s.takeIf (s.rxReady && s.faIdx != 0 && decide (s.faIdx < s.params.maxReq) && storable b) fun s =>
        s.storeByte s.faIdx b := rfl

theorem exec_rxOverflow (b : Byte) (s : State) :
    exec (.rxOverflow b) s =
      s.takeIf (s.rxReady && s.faIdx != 0 && decide (s.params.maxReq ≤ s.faIdx) && storable b) fun s =>
        s.finishSilent .frameOverflow := rfl

theorem exec_reqDiscover (r : Request) (s : State) :
    exec (.reqDiscover r) s = s.takeIf (s.rxReady && s.faIdx != 0) fun s => s.processRequest .discover r := rfl

theorem exec_reqPoll (r : Request) (s : State) :
    exec (.reqPoll r) s = s.takeIf (s.rxReady && s.faIdx != 0) fun s => s.processRequest .poll r := rfl

theorem exec_hostNop (s : State) : exec .hostNop s = .next s := rfl

theorem exec_hostConfigure (id : Byte) (poll : Nat) (desc unit : List Byte) (s : State) :
    exec (.hostConfigure id poll desc unit) s = s.takeIf s.hostReady fun s => s.configure id poll desc unit := rfl

theorem exec_hostSetValue (id : Byte) (v : Value) (s : State) :
    exec (.hostSetValue id v) s = s.takeIf s.hostReady fun s => s.setValue id v := rfl

theorem exec_hostReserved (s : State) :
    exec .hostReserved s = s.takeIf s.hostReady fun s => s.refuse .hostReservedOp := rfl

/-- The request instructions, by their opcode. -/
theorem exec_request (op : Opcode) (r : Request) (s : State) :
    exec (requestInstr op r) s = s.takeIf (s.rxReady && s.faIdx != 0) fun s => s.processRequest op r := by
  cases op <;> rfl

/-- A request instruction, and the `\n` that ends a frame, are taken in `LISTEN` while a frame is assembled. -/
theorem State.frameEnds (s : State) (hp : s.phase = .listen) (hi : 0 < s.faIdx) :
    (s.rxReady && s.faIdx != 0) = true := by
  simp [State.rxReady, hp]; omega

end Sys2Proof.Machine
end

