-- ==== Sys2Proof/Laws/PerInstr.lean ====
section
/-! SUPPORT. Statements about the instructions as syntax, one lemma per constructor of `Instr`. -/

namespace Sys2Proof.Laws.EncodedMatchesRow

/-- The encoding of a well-formed instruction matches its row of spec/opcode_table.json. -/
def Statement (i : Instr) : Prop :=
  i.wellFormed = true → matchesRow (encode i).tableBytes (tableRow i) = true

theorem rxStart : Statement .rxStart := fun _ => rfl

theorem rxDiscard (b : Byte) : Statement (.rxDiscard b) := fun _ => by
  simp [encode, Code.tableBytes, tableRow, matchesRow]

theorem rxCr : Statement .rxCr := fun _ => rfl

theorem rxLf : Statement .rxLf := fun _ => rfl

theorem rxData (b : Byte) : Statement (.rxData b) := fun _ => by
  simp [encode, Code.tableBytes, tableRow, matchesRow]

theorem rxOverflow (b : Byte) : Statement (.rxOverflow b) := fun _ => by
  simp [encode, Code.tableBytes, tableRow, matchesRow]

theorem reqDiscover (r : Request) : Statement (.reqDiscover r) := fun _ => by
  simp [encode, Code.tableBytes, tableRow, matchesRow, Request.bytes, Request.covered, Opcode.byte]

theorem reqPoll (r : Request) : Statement (.reqPoll r) := fun _ => by
  simp [encode, Code.tableBytes, tableRow, matchesRow, Request.bytes, Request.covered, Opcode.byte]

theorem hostNop : Statement .hostNop := fun _ => rfl

theorem hostConfigure (id : Byte) (poll : Nat) (desc unit : List Byte) :
    Statement (.hostConfigure id poll desc unit) := fun _ => by
  simp [encode, Code.tableBytes, tableRow, matchesRow, HostCommand.ofOp]

theorem hostSetValue (id : Byte) (value : Value) : Statement (.hostSetValue id value) := fun _ => by
  simp [encode, Code.tableBytes, tableRow, matchesRow, HostCommand.ofOp]

theorem hostReserved : Statement .hostReserved := fun _ => rfl

end Sys2Proof.Laws.EncodedMatchesRow
end

