-- ==== Sys2Proof/Laws/Run.lean ====
section
/-! SUPPORT. Runs of several steps, and single steps by the input that stands first. -/

namespace Sys2Proof.Machine

open Host

theorem run_zero (s : State) : core.run 0 s = .next s := Core.run.eq_1 core s

/-- A run of `n + 1` steps, by the outcome of its first. -/
theorem run_cases (n : Nat) (s : State) :
    (∃ t, step s = .next t ∧ core.run (n + 1) s = core.run n t) ∨
      (∃ r, step s = .fault r ∧ core.run (n + 1) s = .fault r) ∨
      (∃ r, step s = .refused r ∧ core.run (n + 1) s = .refused r) := by
  have h := Core.run.eq_2 core s n
  cases hs : core.step s with
  | next t => rw [hs] at h; exact .inl ⟨t, hs, h⟩
  | fault r => rw [hs] at h; exact .inr (.inl ⟨r, hs, h⟩)
  | refused r => rw [hs] at h; exact .inr (.inr ⟨r, hs, h⟩)

/-- A run begins with its first step. -/
theorem run_succ {s t : State} (n : Nat) (h : step s = .next t) : core.run (n + 1) s = core.run n t := by
  rcases run_cases n s with ⟨t', h', e⟩ | ⟨r, h', -⟩ | ⟨r, h', -⟩
  · rw [h] at h'; cases h'; exact e
  · rw [h] at h'; cases h'
  · rw [h] at h'; cases h'

/-- A run of `n + m` steps is a run of `n` steps and then one of `m`. -/
theorem run_add {s t : State} (n m : Nat) (h : core.run n s = .next t) : core.run (n + m) s = core.run m t := by
  induction n generalizing s with
  | zero =>
    rw [run_zero] at h
    cases h
    rw [Nat.zero_add]
  | succ n ih =>
    rcases run_cases n s with ⟨s', hs, e⟩ | ⟨r, -, e⟩ | ⟨r, -, e⟩
    · rw [e] at h
      rw [Nat.add_right_comm, run_succ _ hs]
      exact ih h
    · rw [e] at h; cases h
    · rw [e] at h; cases h

/-- A label that stands first and is enabled is the step. -/
theorem step_label {s : State} {l : Label} {rest : List Input} (h : s.inputs = .label l :: rest)
    (he : s.labelEnabled l = true) : step s = (s.withInputs rest).onLabel l := by
  have hs := State.scan_enabled (x := .label l) rest rfl (show s.enabled (.label l) = true from he)
  simp [step, State.fetch, h, hs]

/-- A host command that stands first is the step where the port is ready. -/
theorem step_host {s : State} {c : HostCommand} {rest : List Input} (h : s.inputs = .host c :: rest)
    (he : s.hostReady = true) : step s = exec (decodeCommand c) (s.withInputs rest) := by
  have hs := State.scan_enabled (x := .host c) rest rfl (show s.enabled (.host c) = true from he)
  simp [step, State.fetch, h, hs]

/-- A received byte that stands first is the step in `LISTEN`. -/
theorem step_rx {s : State} {b : Byte} {rest : List Input} (h : s.inputs = .rx b :: rest)
    (he : s.rxReady = true) :
    step s = exec (decodeReceived s.assembler s.frame b) (s.withInputs rest) := by
  have hs := State.scan_enabled (x := .rx b) rest rfl (show s.enabled (.rx b) = true from he)
  simp [step, State.fetch, h, hs]
  rfl

/-- A change of a pin that stands first is no step: the step is that of the state with the pin changed. -/
theorem step_pin {s : State} {p : Pin} {rest : List Input} (h : s.inputs = .pin p :: rest) :
    step s = step ((s.drivePin p).withInputs rest) := by
  have e : ((s.drivePin p).withInputs rest).scan rest =
      { (s.drivePin p).scan rest with state := ((s.drivePin p).scan rest).state.withInputs rest } :=
    State.scan_withInputs _ _ _
  simp only [step, State.fetch, h, State.scan_pin, State.withInputs_inputs, e, State.withInputs_withInputs]

end Sys2Proof.Machine
end

