-- ==== Sys2Proof/Tests/Slice0.lean ====
section
/-! SUPPORT. Our own tests, each about one step or one function, with results taken from spec/95_test_vectors.md or
worked out by hand from the rule named; and a witness for the hypotheses of each statement of
Sys2Proof/Certificates/Slice0/Obligations.lean. -/

namespace Sys2Proof.Tests

open Sys2Proof Sys2Proof.Machine

-- One theorem at a time: as parallel tasks they would each hold a thread of their own.
set_option Elab.async false

-- Helpers.

/-- The next state of an outcome, if it has one. -/
def nextOf (o : Host.Outcome State Fault Refusal) : Option State :=
  match o with
  | .next s => some s
  | .fault _ => none
  | .refused _ => none

theorem eq_next {o : Host.Outcome State Fault Refusal} {t : State} (h : nextOf o = some t) : o = .next t := by
  cases o <;> simp_all [nextOf]

/-- `"Temperature room 2"`. -/
def roomText : List Byte :=
  [0x54, 0x65, 0x6D, 0x70, 0x65, 0x72, 0x61, 0x74, 0x75, 0x72, 0x65, 0x20, 0x72, 0x6F, 0x6F, 0x6D, 0x20, 0x32]

/-- `"degree C"`. -/
def unitText : List Byte := [0x64, 0x65, 0x67, 0x72, 0x65, 0x65, 0x20, 0x43]

/-- Device 9 of vector S7, with no value pending. -/
def slot9 : Slot :=
  { desc := roomText, devId := 9, poll := 10, unit := unitText, value := Value.zero, haveValue := false }

/-- Device 9 of vector S8, with the value 23.5 pending. -/
def slot9Value : Slot := { slot9 with value := .decimal 23500000, haveValue := true }

/-- Device 127, the highest id. -/
def slot127 : Slot := { slot9 with devId := 127 }

/-- In `LISTEN` with the given occupied slots, and nothing offered. -/
def listening (xs : List Slot) : State :=
  { State.reset with
    slots := xs ++ List.replicate (10 - xs.length) Slot.free
    setupDone := true, phase := .listen, de := .rx, txReady := true, uart := some { code := 0 } }

/-- In `LISTEN` with one device, and these bytes in the assembler. -/
def assembling (x : Slot) (bs : List Byte) : State := (listening [x]).holding bs

/-- In a BUSY phase, sending the reply with this body. -/
def sending (p : Phase) (resp : List Byte) (txPos : Nat) (crc : Crc) (clr : Option Nat) : State :=
  { listening [slot9Value] with phase := p, de := .tx, resp := resp, txPos := txPos, crcAcc := crc, pendingClear := clr }

/-- `"!09:P23.500000|"`, the body of vector S8. -/
def pollText : List Byte := [0x21, 0x30, 0x39, 0x3A, 0x50, 0x32, 0x33, 0x2E, 0x35, 0x30, 0x30, 0x30, 0x30, 0x30, 0x7C]

/-- The free bytes of `?09:D|7b5b`. -/
def discover9 : Request :=
  { idHi := 0x30, idLo := 0x39, sep := 0x3A, crc3 := 0x37, crc2 := 0x62, crc1 := 0x35, crc0 := 0x62 }

/-- The free bytes of `?09:P|7b54`. -/
def poll9 : Request := { discover9 with crc0 := 0x34 }

/-- The 10 bytes `?09:D|7b5b`. -/
def discoverBytes : List Byte := [0x3F, 0x30, 0x39, 0x3A, 0x44, 0x7C, 0x37, 0x62, 0x35, 0x62]

/-- The 10 bytes `?09:P|7b54`. -/
def pollBytes : List Byte := [0x3F, 0x30, 0x39, 0x3A, 0x50, 0x7C, 0x37, 0x62, 0x35, 0x34]

-- WellFormed refuses an ill-formed term for each of its checks.

theorem test_illFormed_bytes :
    (Instr.rxDiscard 0x3F).wellFormed = false ∧ (Instr.rxData 0x0D).wellFormed = false ∧
      (Instr.rxData 0x0A).wellFormed = false ∧ (Instr.rxOverflow 0x0D).wellFormed = false ∧
      (Instr.rxOverflow 0x0A).wellFormed = false := by decide

theorem test_illFormed_discover :
    (Instr.reqDiscover { discover9 with idHi := 0x0A }).wellFormed = false ∧
      (Instr.reqDiscover { discover9 with idLo := 0x0D }).wellFormed = false ∧
      (Instr.reqDiscover { discover9 with sep := 0x0A }).wellFormed = false ∧
      (Instr.reqDiscover { discover9 with crc3 := 0x0D }).wellFormed = false ∧
      (Instr.reqDiscover { discover9 with crc2 := 0x0A }).wellFormed = false ∧
      (Instr.reqDiscover { discover9 with crc1 := 0x0D }).wellFormed = false ∧
      (Instr.reqDiscover { discover9 with crc0 := 0x0A }).wellFormed = false := by decide

theorem test_illFormed_poll : (Instr.reqPoll { poll9 with sep := 0x0D }).wellFormed = false := by decide

-- Decoding: words written out from the spec's encodings (R70, R72, R74, R80).

theorem test_decode_rxStart : decodeTableWord 8 0b00111111 = some .rxStart := by decide
theorem test_decode_rxDiscard : decodeTableWord 8 0b01111000 = some (.rxDiscard 0x78) := by decide
theorem test_decode_rxCr : decodeTableWord 8 0b00001101 = some .rxCr := by decide
theorem test_decode_rxLf : decodeTableWord 8 0b00001010 = some .rxLf := by decide
theorem test_decode_rxLf_idle : decode (.byte .idle 0x0A) = .ok (.rxDiscard 0x0A) := rfl
theorem test_decode_rxData : decode (.byte .accumulating 0x3F) = .ok (.rxData 0x3F) := rfl
theorem test_decode_rxOverflow : decode (.byte .full 0x42) = .ok (.rxOverflow 0x42) := rfl
theorem test_decode_hostNop : decodeTableWord 8 0b00 = some .hostNop := by decide
theorem test_decode_hostReserved : decodeTableWord 8 0b11 = some .hostReserved := by decide

theorem test_decode_hostConfigure :
    decode (.command { op := 0b01, id := 9, poll := 10, desc := roomText, unit := unitText, value := .decimal 5 }) =
      .ok (.hostConfigure 9 10 roomText unitText) := rfl

theorem test_decode_hostSetValue :
    decode (.command { op := 0b10, id := 9, poll := 3, desc := roomText, unit := [], value := .decimal 23500000 }) =
      .ok (.hostSetValue 9 (.decimal 23500000)) := rfl

theorem test_decode_reqDiscover : decode (.frame discoverBytes) = .ok (.reqDiscover discover9) := rfl
theorem test_decode_reqPoll : decode (.frame pollBytes) = .ok (.reqPoll poll9) := rfl

theorem test_decodeTableWord_frames :
    decodeTableWord 80 0x3F30393A447C37623562 = some (.reqDiscover discover9) ∧
      decodeTableWord 80 0x3F30393A507C37623534 = some (.reqPoll poll9) := by decide +kernel

/-- Vector V5: the frames of the wrong shape, refused by the check they fail. -/
theorem test_decode_malformed :
    decode (.frame (discoverBytes.take 9)) = .error .frameLength ∧
      decode (.frame (discoverBytes ++ [0x30])) = .error .frameLength ∧
      decode (.frame (discoverBytes.set 0 0x21)) = .error .frameStart ∧
      decode (.frame (discoverBytes.set 5 0x3A)) = .error .frameDelimiter ∧
      decode (.frame (discoverBytes.set 4 0x64)) = .error .frameOpcode := ⟨rfl, rfl, rfl, rfl, rfl⟩

-- The codec (vectors V1, V2, S7, S8).

theorem test_crc_vectors :
    crc16Of [0x31, 0x32, 0x33, 0x34, 0x35, 0x36, 0x37, 0x38, 0x39] = 0xbb3d ∧ crc16Of [0x41] = 0x30c0 ∧
      crc16Of [0xFF] = 0x4040 ∧ crc16Of (discoverBytes.take 6) = 0x7b5b ∧
      crc16Of (pollBytes.take 6) = 0x7b54 ∧ crc16Of pollText = 0x018c := by decide +kernel

/-- `dec(65535)`, `render6(-1.25)`, `unquote` of an upper-case, a non-hex and a cut escape. -/
theorem test_codec_texts :
    dec 65535 = [0x36, 0x35, 0x35, 0x33, 0x35] ∧
      render6 (.decimal (-1250000)) = [0x2D, 0x31, 0x2E, 0x32, 0x35, 0x30, 0x30, 0x30, 0x30] ∧
      unquote [0x5C, 0x37, 0x43] = [0x7C] ∧ unquote [0x5C, 0x7A, 0x7A] = [0x00] ∧
      unquote [0x5C, 0x37] = [0x5C, 0x37] ∧ quote [0x0C, 0x7C] = [0x5C, 0x30, 0x63, 0x5C, 0x37, 0x63] := by
  decide +kernel

-- The received bytes (vector V4).

theorem test_rxStart :
    (nextOf (exec .rxStart (listening [slot9]))).map (fun t => (t.faIdx, t.frame)) = some (1, [0x3F]) := by
  decide +kernel

theorem test_rxDiscard : nextOf (exec (.rxDiscard 0x0A) (listening [slot9])) = some (listening [slot9]) := by
  decide +kernel

theorem test_rxCr :
    nextOf (exec .rxCr (assembling slot9 discoverBytes)) = some (assembling slot9 discoverBytes) := by decide +kernel

theorem test_rxData :
    (nextOf (exec (.rxData 0x3F) (assembling slot9 [0x3F, 0x61]))).map (fun t => (t.faIdx, t.frame)) =
      some (3, [0x3F, 0x61, 0x3F]) := by decide +kernel

/-- `?` and 15 bytes fill the buffer; the next byte abandons the frame. -/
theorem test_rxOverflow :
    (nextOf (exec (.rxOverflow 0x42) (assembling slot9 (0x3F :: List.replicate 15 0x41)))).map
      (fun t => (t.faIdx, t.phase, t.drops)) = some (0, .listen, [.frameOverflow]) := by decide +kernel

/-- The `\n` that ends `?09:D|7b5b` starts the reply in its own step. -/
theorem test_rxLf_frame :
    (nextOf (exec .rxLf (assembling slot9 discoverBytes))).map (fun t => (t.faIdx, t.phase, t.de)) =
      some (10, .txTurn, .tx) := by decide +kernel

theorem test_rxLf_malformed :
    (nextOf (exec .rxLf (assembling slot9 [0x3F, 0x61, 0x62, 0x3F, 0x63, 0x64]))).map
      (fun t => (t.faIdx, t.phase, t.de, t.drops)) = some (0, .listen, .rx, [.frameMalformed]) := by decide +kernel

-- The requests (vectors S7, S8, V5).

/-- `!09:D10|Temperature room 2|degree C|`, 36 bytes with CRC 0x84ea. -/
theorem test_reqDiscover :
    (nextOf (exec (.reqDiscover discover9) (assembling slot9 discoverBytes))).map
      (fun t => (t.resp.length, crc16Of t.resp, t.resp.take 8, t.pendingClear)) =
      some (36, 0x84ea, [0x21, 0x30, 0x39, 0x3A, 0x44, 0x31, 0x30, 0x7C], none) := by decide +kernel

/-- `?09:D|7b5c`. -/
theorem test_reqDiscover_crc :
    (nextOf (exec (.reqDiscover { discover9 with crc0 := 0x63 }) (assembling slot9 discoverBytes))).map
      (fun t => (t.faIdx, t.phase, t.drops)) = some (0, .listen, [.crcMismatch]) := by decide +kernel

theorem test_reqPoll :
    (nextOf (exec (.reqPoll poll9) (assembling slot9Value pollBytes))).map
      (fun t => (t.resp, t.pendingClear, t.phase, t.de)) = some (pollText, some 0, .txTurn, .tx) := by decide +kernel

theorem test_reqPoll_noValue :
    (nextOf (exec (.reqPoll poll9) (assembling slot9 pollBytes))).map
      (fun t => (t.faIdx, t.phase, t.drops)) = some (0, .listen, [.noPendingValue]) := by decide +kernel

-- The host commands (vector V3).

theorem test_hostNop : nextOf (exec .hostNop State.reset) = some State.reset := by decide +kernel

theorem test_hostConfigure_first :
    (nextOf (exec (.hostConfigure 9 10 roomText unitText) State.reset)).map
      (fun t => (t.slots.take 2, t.setupDone, t.outs, t.de, t.phase)) =
      some ([slot9, Slot.free], true, [.uartConfigure { code := 0 }], .rx, .listen) := by decide +kernel

/-- `CONFIGURE 200, 1, "", ""` is refused, not dropped. -/
theorem test_hostConfigure_refused :
    (nextOf (exec (.hostConfigure 200 1 [] []) (listening [slot9]))).map
      (fun t => (t.refused, t.refusals, t.drops)) = some (true, [.hostIdRange], []) := by decide +kernel

theorem test_hostSetValue :
    (nextOf (exec (.hostSetValue 9 (.decimal 23500000)) (listening [slot9]))).map (fun t => t.slots[0]?) =
      some (some slot9Value) := by decide +kernel

theorem test_hostSetValue_unknown :
    (nextOf (exec (.hostSetValue 200 (.decimal 1000000)) (listening [slot9]))).map
      (fun t => (t.refused, t.drops)) = some (false, [.unknownIdSet]) := by decide +kernel

theorem test_hostReserved :
    (nextOf (exec .hostReserved (listening [slot9]))).map (fun t => (t.refused, t.refusals)) =
      some (true, [.hostReservedOp]) := by decide +kernel

-- Sending a reply (vector V7).

/-- The last body byte of vector S8: `'|'`, after which `crc_acc` is 0x018c and the CRC digits follow. -/
theorem test_tx_lastBodyByte :
    (nextOf (step ((sending .txBody pollText 14 (crc16Of (pollText.take 14)) (some 0)).offer (.label .txWrite)))).map
      (fun t => (t.outs, t.crcAcc, t.txPos, t.phase)) =
      some ([.txWrite 0x7C .tx], 0x018c, 0, .txCrc) := by decide +kernel

/-- The fourth CRC digit of 0x018c is `'c'`. -/
theorem test_tx_lastCrcDigit :
    (nextOf (step ((sending .txCrc pollText 3 0x018c (some 0)).offer (.label .txWrite)))).map
      (fun t => (t.outs, t.phase)) = some ([.txWrite 0x63 .tx], .txCr) := by decide +kernel

theorem test_txComplete :
    (nextOf (step (({ sending .txDrain pollText 3 0x018c (some 0) with txc := true }).offer (.label .txComplete)))).map
      (fun t => (t.de, t.phase, t.faIdx, t.pendingClear, t.slots[0]?)) =
      some (.rx, .listen, 0, none, some { slot9Value with haveValue := false }) := by decide +kernel

/-- R282: the UART's raising of `txc` is no step; the step that sees it ends the reply. -/
theorem test_txcRise_is_no_step :
    (nextOf (step { sending .txDrain pollText 3 0x018c (some 0) with
        inputs := [.rx 0x3F, .pin .txcRise, .label .txComplete] })).map (fun t => (t.phase, t.de, t.inputs)) =
      some (.listen, .rx, [.rx 0x3F]) := by decide +kernel

/-- A host command offered in a BUSY phase waits; the delay that is offered behind it ends. -/
theorem test_host_waits :
    (nextOf (step { sending .txTurn pollText 0 0 none with
        inputs := [.host (HostCommand.ofOp 3), .label .turnElapsed] })).map (fun t => (t.phase, t.refused, t.inputs)) =
      some (.txSettle, false, [.host (HostCommand.ofOp 3)]) := by decide +kernel

/-- Vector V8: reset in the middle of a reply. -/
theorem test_reset :
    (nextOf (step ((sending .txBody pollText 5 0x1234 (some 0)).offer (.label .rst)))).map
      (fun t => (t.phase, t.de, deviceCount t.slots, t.resp, t.crcAcc)) =
      some (.off, .undriven, 0, [], 0) := by decide +kernel

-- withFetchWord: the next step runs the word.

theorem test_withFetchWord_frame :
    (nextOf (step ((listening [slot9]).withFetchWord 80 0x3F30393A447C37623562))).map (fun t => (t.phase, t.inputs)) =
      some (.txTurn, []) := by decide +kernel

theorem test_withFetchWord_byte :
    (nextOf (step (State.reset.withFetchWord 8 0x3F))).map (fun t => (t.frame, t.inputs)) = some ([0x3F], []) := by
  decide +kernel

theorem test_withFetchWord_host :
    (nextOf (step (State.reset.withFetchWord 8 3))).map (fun t => (t.phase, t.refused)) = some (.off, true) := by
  decide +kernel

-- A witness for the hypotheses of each statement that has some, in the order of the statements; for a statement of
-- several clauses, one for each clause, at a boundary of its range where it has one.

theorem test_witness_HexDigitsDecodeAndRoundTrip :
    hex4 0x84EA = [0x38, 0x34, 0x65, 0x61] ∧ hex4 0xFFFF = [0x66, 0x66, 0x66, 0x66] ∧
      hexDigit 9 = 0x39 ∧ hexDigit 10 = 0x61 ∧ hexDigit 15 = 0x66 ∧
      (hexValue 0x2F).toNat = 0 ∧ (hexValue 0x30).toNat = 0 ∧ (hexValue 0x39).toNat = 9 ∧ (hexValue 0x3A).toNat = 0 ∧
      (hexValue 0x41).toNat = 10 ∧ (hexValue 0x46).toNat = 15 ∧ (hexValue 0x47).toNat = 0 ∧
      (hexValue 0x61).toNat = 10 ∧ (hexValue 0x66).toNat = 15 ∧ (hexValue 0x67).toNat = 0 := by decide +kernel

theorem test_witness_QuotedTextHidesDelimiters :
    (0x20 : Byte) ∈ quote [0x20] ∧ (0x7E : Byte) ∈ quote [0x7E] ∧ (0x5C : Byte) ∈ quote [0x7F] ∧
      (0x33 : Byte) ∈ quote [0x3F] ∧ quote [0x1F] = [0x5C, 0x31, 0x66] ∧ quote [0x22] = [0x22] ∧
      quote [0x5C] = [0x5C, 0x35, 0x63] ∧ quote [0x80] = [0x5C, 0x38, 0x30] := by decide +kernel

theorem test_witness_DecimalTextReadsBack :
    (0x39 : Byte) ∈ dec 9 ∧ (0x30 : Byte) ∈ dec 10 ∧ (10 : Nat) ≠ 0 ∧ dec 1 = [0x31] := by decide +kernel

theorem test_witness_RenderedValueHasSixFractionDigits :
    render6 (.decimal (-1)) = [0x2D, 0x30, 0x2E, 0x30, 0x30, 0x30, 0x30, 0x30, 0x31] ∧
      render6 (.decimal 999999) = [0x30, 0x2E, 0x39, 0x39, 0x39, 0x39, 0x39, 0x39] := by decide +kernel

theorem test_witness_InputsDecodeByTheirClassAndOp :
    (HostCommand.ofOp 0).op = 0#2 ∧ (HostCommand.ofOp 1).op = 1#2 ∧ (HostCommand.ofOp 2).op = 2#2 ∧
      (HostCommand.ofOp 3).op = 3#2 := by decide

theorem test_witness_DecodeUndoesEncode :
    (Instr.rxDiscard 0xFF).wellFormed = true ∧ (Instr.rxData 0x3F).wellFormed = true ∧
      (Instr.rxOverflow 0x00).wellFormed = true ∧ (Instr.reqDiscover discover9).wellFormed = true ∧
      (Instr.reqPoll { poll9 with sep := 0xFF }).wellFormed = true ∧
      (Instr.hostConfigure 255 70000 [0] []).wellFormed = true := by decide

theorem test_witness_FetchedInstructionsAreWellFormed :
    ((assembling slot9 discoverBytes).offer (.rx 0x0A)).Inv ∧
      ((assembling slot9 discoverBytes).offer (.rx 0x0A)).fetch =
        .instr (.reqDiscover discover9) (assembling slot9 discoverBytes) := by decide +kernel

theorem test_witness_StartMarkerBeginsAFrame :
    (listening [slot9]).phase = .listen ∧ (listening [slot9]).faIdx = 0 ∧
      (listening [slot9]).faBuf.length = (listening [slot9]).params.maxReq ∧
      1 ≤ (listening [slot9]).params.maxReq := by decide +kernel

theorem test_witness_DataByteIsAppended :
    let s := assembling slot9 (0x3F :: List.replicate 14 0x41)
    s.phase = .listen ∧ 0 < s.faIdx ∧ s.faIdx < s.params.maxReq ∧ (0x3F : Byte) ≠ 0x0D ∧ (0x3F : Byte) ≠ 0x0A ∧
      s.faBuf.length = s.params.maxReq := by decide +kernel

theorem test_witness_OverlongFrameIsAbandoned :
    let s := assembling slot9 (0x3F :: List.replicate 15 0x41)
    s.phase = .listen ∧ 0 < s.faIdx ∧ s.faIdx = s.params.maxReq ∧ (0x42 : Byte) ≠ 0x0D ∧ (0x42 : Byte) ≠ 0x0A := by
  decide +kernel

theorem test_witness_MalformedFrameIsDropped :
    let s := assembling slot9 (discoverBytes.take 9)
    s.phase = .listen ∧ 0 < s.faIdx ∧ ¬ ∃ (op : Opcode) (r : Request), s.frame = r.bytes op := by
  refine ⟨rfl, by decide +kernel, ?_⟩
  rintro ⟨op, r, h⟩
  have := congrArg List.length h
  rw [show (assembling slot9 (discoverBytes.take 9)).frame.length = 9 by decide +kernel] at this
  simp [Request.bytes, Request.covered] at this

theorem test_witness_LineEndRunsTheValidator :
    let s := (assembling slot9 discoverBytes).offer (.rx 0x0A)
    s.phase = .listen ∧ 0 < s.faIdx ∧ s.frame = discover9.bytes .discover ∧ s.inputs = Input.rx 0x0A :: [] := by
  decide +kernel

/-- The 15 bytes after the `'?'` fill the buffer, with a `\r` between that is left out. -/
theorem test_witness_ReceivedBytesAssembleIntoTheFrame :
    let bs : List Byte := List.replicate 8 0x41 ++ [0x0D] ++ List.replicate 7 0x42
    let s := { listening [slot9] with inputs := (0x3F :: bs).map Input.rx ++ [Input.rx 0x0A] }
    s.phase = .listen ∧ s.faIdx = 0 ∧ s.faBuf.length = s.params.maxReq ∧ 0x0A ∉ bs ∧
      (bs.filter fun b => b != 0x0D).length + 1 ≤ s.params.maxReq ∧
      s.inputs = (0x3F :: bs).map Input.rx ++ [Input.rx 0x0A] := by decide +kernel

theorem test_witness_DiscoveryStartsItsReply :
    let s := assembling slot9 discoverBytes
    s.phase = .listen ∧ 0 < s.faIdx ∧ requestCrc discover9 = crc16Of (discover9.covered .discover) ∧
      lookup (requestId discover9) s.slots = some (0, slot9) := by decide +kernel

theorem test_witness_PollStartsItsReply :
    let s := assembling slot9Value pollBytes
    s.phase = .listen ∧ 0 < s.faIdx ∧ requestCrc poll9 = crc16Of (poll9.covered .poll) ∧
      lookup (requestId poll9) s.slots = some (0, slot9Value) ∧ slot9Value.haveValue = true := by decide +kernel

/-- One state and request for each of the five clauses. -/
theorem test_witness_UnanswerableRequestIsDropped :
    let s := assembling slot9 discoverBytes
    let bad : Request := { discover9 with crc0 := 0x63 }
    let empty := (listening []).holding discoverBytes
    s.phase = .listen ∧ 0 < s.faIdx ∧ empty.phase = .listen ∧ 0 < empty.faIdx ∧
      requestCrc bad ≠ crc16Of (bad.covered .discover) ∧ requestCrc bad ≠ crc16Of (bad.covered .poll) ∧
      requestCrc discover9 = crc16Of (discover9.covered .discover) ∧
      lookup (requestId discover9) empty.slots = none ∧
      requestCrc poll9 = crc16Of (poll9.covered .poll) ∧ lookup (requestId poll9) empty.slots = none ∧
      lookup (requestId poll9) s.slots = some (0, slot9) ∧ slot9.haveValue = false := by decide +kernel

/-- The same request with its CRC digits in the other case (vector V5, `?09:D|7B5B`). -/
theorem test_witness_ExactlyTheComputedCrcIsAccepted :
    let r' : Request := { discover9 with crc2 := 0x42, crc0 := 0x42 }
    discover9.covered .discover = r'.covered .discover ∧ requestCrcOk .discover discover9 = true ∧
      requestCrcOk .discover r' = true := by decide +kernel

/-- One for each opcode. -/
theorem test_witness_ReceivedRequestReachesItsHandler :
    let s := fun op => { listening [slot127] with
      params := { Config.referenceParams with maxReq := 10 }
      faBuf := List.replicate 10 0
      inputs := (requestFor op 127).map Input.rx ++ [Input.rx 0x0A] ++ [] }
    (s .discover).phase = .listen ∧ (s .discover).faIdx = 0 ∧
      (s .discover).faBuf.length = (s .discover).params.maxReq ∧ 10 ≤ (s .discover).params.maxReq ∧
      (s .discover).inputs = (requestFor .discover 127).map Input.rx ++ [Input.rx 0x0A] ++ [] ∧
      (s .poll).phase = .listen ∧ (s .poll).faIdx = 0 ∧ (s .poll).faBuf.length = (s .poll).params.maxReq ∧
      10 ≤ (s .poll).params.maxReq ∧
      (s .poll).inputs = (requestFor .poll 127).map Input.rx ++ [Input.rx 0x0A] ++ [] := by decide +kernel

theorem test_witness_ReplyTexts :
    (0x21 : Byte) ∈ wire 64 (bodyDiscovery slot9) ∧ (0x21 : Byte) ∈ wire 1 (bodyPoll slot9) := by decide +kernel

theorem test_witness_FindAndLookup :
    let slots := [slot9, slot127, Slot.free]
    findSlot 9 slots = some 0 ∧ findSlot 5 slots = some 2 ∧ findSlot 5 [slot9, slot127] = none ∧
      lookup 127 slots = some (1, slot127) ∧ lookup 5 slots = none := by decide +kernel

theorem test_witness_LookupFindsTheSlotOfAnId :
    (listening [slot9, slot127]).registryLegal ∧
      lookup 127 (listening [slot9, slot127]).slots = some (1, slot127) ∧ 127 < (128 : Byte).toNat := by decide +kernel

/-- The last slot is the one free, id and poll interval the highest, the text the shortest. -/
theorem test_witness_ConfigureWritesItsSlot :
    let s := { listening [slot9] with slots := [slot9, Slot.free] }
    (s.phase = .off ∨ s.phase = .listen) ∧ (127 : Byte).toNat ≤ 127 ∧ 65535 < 2 ^ s.params.pollW ∧
      (0 : Byte) ∉ ([1] : List Byte) ∧ (0 : Byte) ∉ ([] : List Byte) ∧ ([1] : List Byte) ≠ [] ∧
      findSlot 127 s.slots = some 1 ∧ s.setupDone = true := by decide +kernel

theorem test_witness_FirstConfigureSetsUp :
    let s := State.reset
    (s.phase = .off ∨ s.phase = .listen) ∧ (127 : Byte).toNat ≤ 127 ∧ 65535 < 2 ^ s.params.pollW ∧
      (0 : Byte) ∉ roomText ∧ (0 : Byte) ∉ unitText ∧ roomText ≠ [] ∧
      findSlot 127 s.slots = some 0 ∧ s.setupDone = false := by decide +kernel

theorem test_witness_ConfigureWithoutEffectIsDropped :
    let s := { listening [slot9] with slots := [slot9] }
    (s.phase = .off ∨ s.phase = .listen) ∧ (5 : Byte).toNat ≤ 127 ∧ 65535 < 2 ^ s.params.pollW ∧
      (0 : Byte) ∉ roomText ∧ (0 : Byte) ∉ unitText ∧ (0 : Byte) ∉ ([] : List Byte) ∧ roomText ≠ [] ∧
      findSlot 5 s.slots = none := by decide +kernel

theorem test_witness_ConfigureOutOfRangeIsRefused :
    let s := listening [slot9]
    (s.phase = .off ∨ s.phase = .listen) ∧ 127 < (128 : Byte).toNat ∧ (127 : Byte).toNat ≤ 127 ∧
      2 ^ s.params.pollW ≤ 65536 ∧ 65535 < 2 ^ s.params.pollW ∧ (0 : Byte) ∈ ([0x61, 0, 0x62] : List Byte) := by
  decide +kernel

theorem test_witness_SetValueStoresAndMarks :
    let s := listening [slot9, slot127]
    (s.phase = .off ∨ s.phase = .listen) ∧ lookup 127 s.slots = some (1, slot127) ∧
      lookup 200 s.slots = none := by decide +kernel

theorem test_witness_ReservedCommandOnlySetsTheMark :
    (State.reset.phase = .off ∨ State.reset.phase = .listen) ∧
      ((listening []).phase = .off ∨ (listening []).phase = .listen) := by decide +kernel

/-- A state for each clause: BUSY; in `OFF`; a frame under assembly, with room; idle; the buffer full. -/
theorem test_witness_InputsNotEnabledHaveNoEffect :
    let busy := sending .txTurn pollText 0 0 none
    let filled := assembling slot9 (0x3F :: List.replicate 15 0x41)
    (busy.phase ≠ .off ∧ busy.phase ≠ .listen) ∧ State.reset.phase ≠ .listen ∧
      (assembling slot9 [0x3F]).faIdx ≠ 0 ∧ (listening []).faIdx = 0 ∧
      filled.params.maxReq ≤ filled.faIdx ∧
      (assembling slot9 [0x3F]).faIdx < (assembling slot9 [0x3F]).params.maxReq := by decide +kernel

theorem test_witness_HostCommandsKeepTheRegistryLegal :
    let c : HostCommand := { HostCommand.ofOp 2 with id := 127, value := .decimal 1 }
    (listening [slot9, slot127]).registryLegal ∧
      exec (decodeCommand c) (listening [slot9, slot127]) =
        .next (listening [slot9, { slot127 with value := .decimal 1, haveValue := true }]) :=
  ⟨by decide +kernel, eq_next (by decide +kernel)⟩

theorem test_witness_ReconfigureKeepsTheDeviceCount :
    let s := listening [slot9, slot127]
    s.registryLegal ∧ s.phase = .listen ∧ s.setupDone = true ∧ 65535 < 2 ^ s.params.pollW ∧ (0 : Byte) ∉ roomText ∧
      (0 : Byte) ∉ unitText ∧ roomText ≠ [] ∧ s.slots[1]? = some slot127 ∧ slot127.desc ≠ [] ∧
      slot127.devId = 127 := by decide +kernel

theorem test_witness_DelaysEndInTheirPhases :
    let turn := (sending .txTurn pollText 0 0 none).offer (.label .turnElapsed)
    let settle := (sending .txSettle pollText 0 0 none).offer (.label .settleElapsed)
    turn.phase = .txTurn ∧ turn.inputs = .label .turnElapsed :: [] ∧
      settle.phase = .txSettle ∧ settle.inputs = .label .settleElapsed :: [] := by decide +kernel

theorem test_witness_SyncByteAndTerminatorAreWritten :
    let s := fun p => (sending p pollText 3 0x018c none).offer (.label .txWrite)
    (s .txSync).txReady = true ∧ (s .txSync).inputs = .label .txWrite :: [] ∧ (s .txSync).phase = .txSync ∧
      (s .txCr).txReady = true ∧ (s .txCr).inputs = .label .txWrite :: [] ∧ (s .txCr).phase = .txCr ∧
      (s .txLf).txReady = true ∧ (s .txLf).inputs = .label .txWrite :: [] ∧ (s .txLf).phase = .txLf := by
  decide +kernel

theorem test_witness_BodyByteIsWrittenAndAccumulated :
    let s := (sending .txBody pollText 14 (crc16Of (pollText.take 14)) none).offer (.label .txWrite)
    s.txReady = true ∧ s.inputs = .label .txWrite :: [] ∧ s.phase = .txBody ∧
      s.resp[s.txPos]? = some 0x7C := by decide +kernel

theorem test_witness_CrcDigitsAreWrittenHighNibbleFirst :
    let s := (sending .txCrc pollText 3 0x018c none).offer (.label .txWrite)
    s.txReady = true ∧ s.inputs = .label .txWrite :: [] ∧ s.phase = .txCrc ∧ s.txPos < 4 := by decide +kernel

theorem test_witness_TransmitCompleteEndsTheReply :
    let s := { sending .txDrain pollText 3 0x018c (some 0) with txc := true, inputs := [.label .txComplete] }
    s.phase = .txDrain ∧ s.txc = true ∧ s.inputs = .label .txComplete :: [] := by decide +kernel

theorem test_witness_DeliveredValueIsNotDeliveredAgain :
    let s := sending .txDrain pollText 3 0x018c (some 0)
    s.registryLegal ∧ s.pendingClear = some 0 ∧ s.slots[0]? = some slot9Value ∧ slot9Value.desc ≠ [] := by
  decide +kernel

/-- The longest body the buffer holds. -/
theorem test_witness_ReplySendsItsWireImage :
    let s := { sending .txTurn pollText 0 0 (some 0) with
      params := { Config.referenceParams with maxResp := 15 }, inputs := replyInputs 15 ++ [Input.rx 0x3F] }
    s.phase = .txTurn ∧ s.txReady = true ∧ s.resp ≠ [] ∧ s.resp.length ≤ s.params.maxResp ∧
      s.inputs = replyInputs s.resp.length ++ [Input.rx 0x3F] := by decide +kernel

theorem test_witness_StuckTransmitCompleteHangs :
    let s := { sending .txDrain pollText 3 0x018c none with
      inputs := [.label .txComplete, .host (HostCommand.ofOp 1), .pin (.txReady false), .rx 0x3F] }
    s.phase = .txDrain ∧ s.txc = false ∧ Input.pin .txcRise ∉ s.inputs ∧ Input.label .rst ∉ s.inputs := by
  decide +kernel

/-- For each of the three clauses about an instruction, an input behind one that is not enabled; and the two pins. -/
theorem test_witness_StepRunsTheDecodedInstruction :
    let host := { listening [slot9] with inputs := [.label .txComplete, .host (HostCommand.ofOp 0)] }
    let byte := { listening [slot9] with inputs := [.label .txComplete, .rx 0x3F] }
    let frame := { assembling slot9 discoverBytes with inputs := [.label .txComplete, .rx 0x0A] }
    (host.enabled (.label .txComplete) = false ∧ host.inputs = [.label .txComplete] ++ .host (HostCommand.ofOp 0) :: [] ∧
      host.phase = .listen ∧ decode (.command (HostCommand.ofOp 0)) = .ok .hostNop) ∧
    (byte.enabled (.label .txComplete) = false ∧ byte.inputs = [.label .txComplete] ++ .rx 0x3F :: [] ∧
      byte.phase = .listen ∧ decode (.byte byte.assembler 0x3F) = .ok .rxStart ∧ Instr.rxStart ≠ .rxLf) ∧
    (frame.enabled (.label .txComplete) = false ∧ frame.inputs = [.label .txComplete] ++ .rx 0x0A :: [] ∧
      frame.phase = .listen ∧ frame.faIdx ≠ 0 ∧ decode (.frame frame.frame) = .ok (.reqDiscover discover9)) ∧
    (State.reset.offer (.pin (.txReady true))).inputs = .pin (.txReady true) :: [] ∧
    (State.reset.offer (.pin .txcRise)).inputs = .pin .txcRise :: [] :=
  ⟨⟨by decide +kernel, by decide +kernel, by decide +kernel, rfl⟩,
    ⟨by decide +kernel, by decide +kernel, by decide +kernel, rfl, by decide⟩,
    ⟨by decide +kernel, by decide +kernel, by decide +kernel, by decide +kernel, rfl⟩, rfl, rfl⟩

theorem test_witness_StepWaitsWhereNothingIsEnabled :
    let s := { sending .txTurn pollText 0 0 none with
      inputs := [.rx 0x3F, .host (HostCommand.ofOp 0), .label .txWrite, .label .txComplete, .label .settleElapsed] }
    ∀ x ∈ s.inputs, s.enabled x = false := by decide +kernel

theorem test_witness_ResetStateIsLegal :
    Config.paramsLegal { nSlots := 1, maxReq := 1, maxResp := 1, pollW := 1, uartCfg := { code := 7 } } := by decide

theorem test_witness_ResetRestoresEveryElement :
    ((sending .txBody pollText 5 0x1234 (some 0)).offer (.label .rst)).inputs = .label .rst :: [] := by decide +kernel

/-- A legal state in which a step is taken: the hypotheses of the statements about every step of a legal state. -/
theorem test_witness_LegalStep :
    let s := (sending .txSync pollText 0 0 (some 0)).offer (.label .txWrite)
    s.Inv ∧ writtenInTransmit s.outs = true ∧
      step s = .next { sending .txBody pollText 0 0 (some 0) with outs := [.txWrite 0xFF .tx] } :=
  ⟨by decide +kernel, by decide +kernel, eq_next (by decide +kernel)⟩

/-- A legal state and a step that changes `de`, for each of the four switches. -/
theorem test_witness_DirectionChangesOnlyAtItsSwitches :
    let setup := State.reset.offer
      (.host { HostCommand.ofOp 1 with id := 9, poll := 10, desc := roomText, unit := unitText })
    let start := (assembling slot9 discoverBytes).offer (.rx 0x0A)
    let finish := { sending .txDrain pollText 3 0x018c (some 0) with inputs := [.pin .txcRise, .label .txComplete] }
    let reset := (listening [slot9]).offer (.label .rst)
    (setup.Inv ∧ (nextOf (step setup)).map (fun t => t.de) = some .rx ∧ setup.de ≠ .rx) ∧
      (start.Inv ∧ (nextOf (step start)).map (fun t => t.de) = some .tx ∧ start.de ≠ .tx) ∧
      (finish.Inv ∧ (nextOf (step finish)).map (fun t => t.de) = some .rx ∧ finish.de ≠ .rx) ∧
      (reset.Inv ∧ (nextOf (step reset)).map (fun t => t.de) = some .undriven ∧ reset.de ≠ .undriven) :=
  ⟨⟨by decide +kernel, by decide +kernel, by decide⟩, ⟨by decide +kernel, by decide +kernel, by decide⟩,
    ⟨by decide +kernel, by decide +kernel, by decide⟩, ⟨by decide +kernel, by decide +kernel, by decide⟩⟩

/-- A step of the receive side that keeps a pending value, one that clears it, and a step with the mark set. -/
theorem test_witness_RegistryAndMark :
    let turn := (sending .txTurn pollText 0 0 (some 0)).offer (.label .turnElapsed)
    let finish := { sending .txDrain pollText 3 0x018c (some 0) with txc := true, inputs := [.label .txComplete] }
    let marked := { listening [slot9] with refused := true, inputs := [.host (HostCommand.ofOp 0)] }
    turn.slots[0]? = some slot9Value ∧ (nextOf (step turn)).map (fun t => t.slots[0]?) = some (some slot9Value) ∧
      slot9Value.haveValue = true ∧
      (nextOf (step finish)).map (fun t => t.slots[0]?.map fun x => x.haveValue) = some (some false) ∧
      marked.refused = true ∧ (nextOf (step marked)).map (fun t => t.refused) = some true := by decide +kernel

end Sys2Proof.Tests
end

section
/-! What the next step takes where inputs that are not enabled stand first, and which instruction a received byte is. -/

namespace Sys2Proof.Machine

/-- The assembler is in `IDLE` exactly while no byte of a frame is stored (R24). -/
theorem State.assembler_eq_idle_iff (s : State) : s.assembler = .idle ↔ s.faIdx = 0 := by
  unfold State.assembler
  split
  · simp [*]
  · split <;> simp [*]

/-- The scan takes the first enabled input, and leaves the inputs around it offered in their order. -/
theorem State.scan_append_enabled {s : State} {before : List Input} {x : Input} (after : List Input)
    (hb : ∀ y ∈ before, s.enabled y = false) (hp : x.pinChange = none) (he : s.enabled x = true) :
    s.scan (before ++ x :: after) = { state := s, taken := some x, rest := before ++ after } := by
  rw [State.scan_append _ hb, State.scan_enabled _ hp he]

/-- A host command behind inputs that are not enabled is the step where the port is ready. -/
theorem step_host_of_append {s : State} {before after : List Input} {c : HostCommand}
    (hb : ∀ x ∈ before, s.enabled x = false) (h : s.inputs = before ++ .host c :: after)
    (he : s.hostReady = true) : step s = exec (decodeCommand c) (s.withInputs (before ++ after)) := by
  have hs := State.scan_append_enabled after hb (x := .host c) rfl he
  simp [step, State.fetch, h, hs]

/-- A received byte behind inputs that are not enabled is the step in `LISTEN`. -/
theorem step_rx_of_append {s : State} {before after : List Input} {b : Byte}
    (hb : ∀ x ∈ before, s.enabled x = false) (h : s.inputs = before ++ .rx b :: after)
    (he : s.rxReady = true) :
    step s = exec (decodeReceived s.assembler s.frame b) (s.withInputs (before ++ after)) := by
  have hs := State.scan_append_enabled after hb (x := .rx b) rfl he
  have hf : s.fetch = .instr (decodeReceived s.assembler s.frame b) (s.withInputs (before ++ after)) := by
    simp only [State.fetch, h, hs]
    rfl
  simp only [step, hf]

/-- A received byte is the instruction of its class, unless it is the `\n` of a frame of the shape of R170. -/
theorem decodeReceived_eq_decodeByte {st : AssemblerState} {frame : List Byte} {b : Byte}
    (h : decodeByte st b = .rxLf → ∀ j, decodeFrame frame ≠ .ok j) :
    decodeReceived st frame b = decodeByte st b := by
  unfold decodeReceived
  split
  case isFalse => rfl
  case isTrue hlf =>
    obtain ⟨hst, rfl⟩ := hlf
    have hclass : decodeByte st Ascii.lf = .rxLf := by
      cases st with
      | idle => exact absurd rfl hst
      | accumulating => rfl
      | full => rfl
    cases hf : decodeFrame frame with
    | ok j => exact absurd hf (h hclass j)
    | error e => exact hclass.symm

/-- The `\n` that ends a frame of the shape of R170 is that frame's request instruction (R153, R178). -/
theorem decodeReceived_lf_of_frame {st : AssemblerState} {frame : List Byte} {i : Instr} (hst : st ≠ .idle)
    (h : decodeFrame frame = .ok i) : decodeReceived st frame Ascii.lf = i := by
  simp [decodeReceived, hst, h]

/-- Settles O52: a scan that finds nothing enabled takes nothing and leaves the state as it is. -/
theorem stepWaitsWhereNothingIsEnabled : Obligations.StepWaitsWhereNothingIsEnabled := by
  intro s h
  have hs := State.scan_of_none_enabled h
  have hf : s.fetch = .wait s := by
    simp only [State.fetch, hs]
    rfl
  simp only [step, hf]

/-- Settles O51: the scan passes over the inputs before, so each clause is the step of the input behind them; for a
byte what remains is which instruction it is. -/
theorem stepRunsTheDecodedInstruction : Obligations.StepRunsTheDecodedInstruction := by
  intro s before after hb
  refine ⟨?host, ?byte, ?frame, ?ready, ?rise⟩
  case host =>
    intro c i h hphase hd
    obtain rfl : decodeCommand c = i := Except.ok.inj hd
    exact step_host_of_append hb h (s.hostReady_iff.2 hphase)
  case byte =>
    intro b i h hphase hd hframe
    obtain rfl : decodeByte s.assembler b = i := Except.ok.inj hd
    have hclass : decodeReceived s.assembler s.frame b = decodeByte s.assembler b :=
      decodeReceived_eq_decodeByte fun hlf j => hframe j hlf
    rw [step_rx_of_append hb h (s.rxReady_iff.2 hphase), hclass]
    rfl
  case frame =>
    intro i h hphase hidx hd
    have hst : s.assembler ≠ .idle := mt s.assembler_eq_idle_iff.1 hidx
    rw [step_rx_of_append hb h (s.rxReady_iff.2 hphase), decodeReceived_lf_of_frame hst hd]
    rfl
  case ready => exact fun v h => step_pin h
  case rise => exact fun h => step_pin h

end Sys2Proof.Machine
end

section
/-! What an instruction can do to the state it is run in: one constructor per change. Claims about every step follow
the cases of `Effect`. -/

namespace Sys2Proof.Machine

/-- The changes an instruction can make, each with the condition under which it makes it. -/
inductive Effect (s : State) : State → Prop
  | unchanged : Effect s s
  | frameStarted (hphase : s.phase = .listen) (hidx : s.faIdx = 0) : Effect s (s.storeByte 0 Ascii.question)
  | byteStored {b : Byte} (hphase : s.phase = .listen) (hidx : s.faIdx ≠ 0) (hroom : s.faIdx < s.params.maxReq)
      (hb : storable b = true) : Effect s (s.storeByte s.faIdx b)
  | silent {tag : DropTag} (hphase : s.phase = .listen) (hidx : s.faIdx ≠ 0) : Effect s (s.finishSilent tag)
  | discoveryReply {id : Byte} {k : Nat} {x : Slot} (hphase : s.phase = .listen) (hidx : s.faIdx ≠ 0)
      (hfound : lookup id s.slots = some (k, x)) : Effect s (s.startReply (encodeDiscovery s.params.maxResp x) none)
  | pollReply {id : Byte} {k : Nat} {x : Slot} (hphase : s.phase = .listen) (hidx : s.faIdx ≠ 0)
      (hfound : lookup id s.slots = some (k, x)) (hvalue : x.haveValue = true) :
      Effect s (s.startReply (encodePoll s.params.maxResp x) (some k))
  | refused {r : RefuseReason} (hready : s.hostReady = true) : Effect s (s.refuse r)
  | dropped {tag : DropTag} (hready : s.hostReady = true) : Effect s (s.drop tag)
  | valueSet {id : Byte} {v : Value} {k : Nat} {x : Slot} (hready : s.hostReady = true)
      (hfound : lookup id s.slots = some (k, x)) : Effect s (s.writeSlot k (x.withValue v))
  | slotConfigured {id : Byte} {poll : Nat} {desc unit : List Byte} {k : Nat} (hready : s.hostReady = true)
      (hok : configureRefusal s.params id poll desc unit = none) (hdesc : desc ≠ [])
      (hfound : findSlot id s.slots = some k) (hset : s.setupDone = true) :
      Effect s (s.writeSlot k (configuredSlot id poll desc unit))
  | setUp {id : Byte} {poll : Nat} {desc unit : List Byte} {k : Nat} (hready : s.hostReady = true)
      (hok : configureRefusal s.params id poll desc unit = none) (hdesc : desc ≠ [])
      (hfound : findSlot id s.slots = some k) (hset : s.setupDone = false) :
      Effect s ((s.writeSlot k (configuredSlot id poll desc unit)).doSetup)

/-- An input that is not enabled has the effect `unchanged`. -/
theorem Effect.of_takeIf {s t : State} {e : Bool} {f : State → State} (h : s.takeIf e f = .next t)
    (hf : e = true → Effect s (f s)) : Effect s t := by
  rcases State.takeIf_cases h with ⟨he, rfl⟩ | ⟨-, rfl⟩
  · exact hf he
  · exact .unchanged

/-- The guard of the instructions that end a frame. -/
theorem State.frameEnds_iff (s : State) :
    (s.rxReady && s.faIdx != 0) = true ↔ s.phase = .listen ∧ s.faIdx ≠ 0 := by
  simp [State.rxReady_iff]

theorem Effect.of_processRequest {s : State} (hphase : s.phase = .listen) (hidx : s.faIdx ≠ 0) (op : Opcode)
    (r : Request) : Effect s (s.processRequest op r) := by
  rcases s.processRequest_cases op r with ⟨tag, -, h⟩ | ⟨k, x, hfound, ⟨-, h⟩ | ⟨-, hvalue, h⟩⟩
  · rw [h]; exact .silent hphase hidx
  · rw [h]; exact .discoveryReply hphase hidx hfound
  · rw [h]; exact .pollReply hphase hidx hfound hvalue

theorem Effect.of_endOfFrame {s : State} (hphase : s.phase = .listen) (hidx : s.faIdx ≠ 0) (bs : List Byte) :
    Effect s (s.endOfFrame bs) := by
  rcases s.endOfFrame_cases bs with h | ⟨op, r, -, h⟩
  · rw [h]; exact .silent hphase hidx
  · rw [h]; exact .of_processRequest hphase hidx op r

theorem Effect.of_configure {s : State} (hready : s.hostReady = true) (id : Byte) (poll : Nat)
    (desc unit : List Byte) : Effect s (s.configure id poll desc unit) := by
  rcases s.configure_cases id poll desc unit with
    ⟨r, -, h⟩ | ⟨tag, -, h⟩ | ⟨k, hok, hdesc, hfound, ⟨hset, h⟩ | ⟨hset, h⟩⟩
  · rw [h]; exact .refused hready
  · rw [h]; exact .dropped hready
  · rw [h]; exact .slotConfigured hready hok hdesc hfound hset
  · rw [h]; exact .setUp hready hok hdesc hfound hset

theorem Effect.of_setValue {s : State} (hready : s.hostReady = true) (id : Byte) (v : Value) :
    Effect s (s.setValue id v) := by
  rcases s.setValue_cases id v with ⟨-, h⟩ | ⟨k, x, hfound, h⟩
  · rw [h]; exact .dropped hready
  · rw [h]; exact .valueSet hready hfound

/-- Every instruction has one of the effects, in every state. -/
theorem exec_effect {i : Instr} {s t : State} (h : exec i s = .next t) : Effect s t := by
  cases i with
  | rxStart =>
    rw [exec_rxStart] at h
    refine .of_takeIf h fun he => ?_
    simp only [Bool.and_eq_true, State.rxReady_iff, beq_iff_eq] at he
    obtain ⟨hphase, hidx⟩ := he
    exact .frameStarted hphase hidx
  | rxDiscard b => cases h; exact .unchanged
  | rxCr => cases h; exact .unchanged
  | rxLf =>
    rw [exec_rxLf] at h
    refine .of_takeIf h fun he => ?_
    obtain ⟨hphase, hidx⟩ := s.frameEnds_iff.1 he
    exact .of_endOfFrame hphase hidx _
  | rxData b =>
    rw [exec_rxData] at h
    refine .of_takeIf h fun he => ?_
    rw [Bool.and_eq_true, Bool.and_eq_true, s.frameEnds_iff, decide_eq_true_eq] at he
    obtain ⟨⟨⟨hphase, hidx⟩, hroom⟩, hb⟩ := he
    exact .byteStored hphase hidx hroom hb
  | rxOverflow b =>
    rw [exec_rxOverflow] at h
    refine .of_takeIf h fun he => ?_
    rw [Bool.and_eq_true, Bool.and_eq_true, s.frameEnds_iff] at he
    obtain ⟨⟨⟨hphase, hidx⟩, -⟩, -⟩ := he
    exact .silent hphase hidx
  | reqDiscover r =>
    rw [exec_reqDiscover] at h
    refine .of_takeIf h fun he => ?_
    obtain ⟨hphase, hidx⟩ := s.frameEnds_iff.1 he
    exact .of_processRequest hphase hidx _ r
  | reqPoll r =>
    rw [exec_reqPoll] at h
    refine .of_takeIf h fun he => ?_
    obtain ⟨hphase, hidx⟩ := s.frameEnds_iff.1 he
    exact .of_processRequest hphase hidx _ r
  | hostNop => cases h; exact .unchanged
  | hostConfigure id poll desc unit =>
    rw [exec_hostConfigure] at h
    exact .of_takeIf h fun he => .of_configure he id poll desc unit
  | hostSetValue id v =>
    rw [exec_hostSetValue] at h
    exact .of_takeIf h fun he => .of_setValue he id v
  | hostReserved =>
    rw [exec_hostReserved] at h
    exact .of_takeIf h fun he => .refused he

end Sys2Proof.Machine
end

section
/-! What a step keeps in every state: the parameters, and the refusal mark up to a reset (R6, R33). -/

namespace Sys2Proof.Machine

theorem State.setPhase_self (s : State) : s.setPhase s.phase = s := rfl

/-- Writing a byte changes the phase and the cursor at most. -/
theorem State.advance_eq (s : State) (b : Byte) :
    ∃ c i p, s.advance b = (s.setCursor c i).setPhase p := by
  unfold State.advance
  split
  case h_2 =>
    split
    · exact ⟨_, _, _, rfl⟩
    · exact ⟨_, _, _, (State.setPhase_self _).symm⟩
  case h_3 =>
    split
    · exact ⟨_, _, _, rfl⟩
    · exact ⟨_, _, _, (State.setPhase_self _).symm⟩
  all_goals exact ⟨_, _, _, rfl⟩

/-- A label other than reset keeps the parameters and the mark. -/
theorem State.onLabel_keeps_mark {s t : State} {l : Label} (hl : l ≠ .rst) (h : s.onLabel l = .next t) :
    t.params = s.params ∧ t.refused = s.refused := by
  cases l with
  | turnElapsed => cases h; exact ⟨rfl, rfl⟩
  | settleElapsed => cases h; exact ⟨rfl, rfl⟩
  | txWrite =>
    obtain ⟨b, -, rfl⟩ := State.transmit_next h
    obtain ⟨c, i, p, e⟩ := s.advance_eq b
    rw [e]
    exact ⟨rfl, rfl⟩
  | txComplete => cases h; rw [State.endReply_eq]; exact ⟨rfl, rfl⟩
  | rst => exact absurd rfl hl

/-- No instruction changes the parameters or clears the mark. -/
theorem Effect.keeps_mark {s t : State} (h : Effect s t) :
    t.params = s.params ∧ (s.refused = true → t.refused = true) := by
  cases h with
  | refused => exact ⟨rfl, fun _ => rfl⟩
  | _ => exact ⟨rfl, id⟩

/-- Settles O60: by the cases of a step; an instruction by its effect, and reset is the only label that clears the
mark. -/
theorem refusedMarkStaysUntilReset : Obligations.RefusedMarkStaysUntilReset := by
  intro s t h
  obtain ⟨ready, txc, rest, -, hcases⟩ := step_cases s
  rcases hcases with ⟨-, hstep⟩ | ⟨c, -, -, -, hstep⟩ | ⟨b, -, -, -, hstep⟩ | ⟨l, -, -, hfetch, hstep⟩ <;>
    rw [hstep] at h
  case inl => cases h; exact ⟨rfl, .inl⟩
  case inr.inl =>
    obtain ⟨hparams, hmark⟩ := (exec_effect h).keeps_mark
    exact ⟨hparams, fun hr => .inl (hmark hr)⟩
  case inr.inr.inl =>
    obtain ⟨hparams, hmark⟩ := (exec_effect h).keeps_mark
    exact ⟨hparams, fun hr => .inl (hmark hr)⟩
  case inr.inr.inr =>
    by_cases hl : l = .rst
    · subst hl
      cases h
      exact ⟨rfl, fun _ => .inr ⟨_, hfetch⟩⟩
    · obtain ⟨hparams, hmark⟩ := State.onLabel_keeps_mark hl h
      exact ⟨hparams, fun hr => .inl (hmark.trans hr)⟩

end Sys2Proof.Machine
end

section
/-! What `exec` answers for an input that is not enabled: the same state (log 6). -/

namespace Sys2Proof.Machine

/-- Outside `LISTEN` no class of received byte has an effect. -/
theorem exec_decodeByte_of_not_rxReady {s : State} (h : s.rxReady = false) (st : AssemblerState) (b : Byte) :
    exec (decodeByte st b) s = .next s := by
  cases st with
  | idle =>
    simp only [decodeByte]
    split_ifs
    · simp [exec_rxStart, State.takeIf, h]
    · exact exec_rxDiscard b s
  | accumulating =>
    simp only [decodeByte]
    split_ifs
    · exact exec_rxCr s
    · simp [exec_rxLf, State.takeIf, h]
    · simp [exec_rxData, State.takeIf, h]
  | full =>
    simp only [decodeByte]
    split_ifs
    · exact exec_rxCr s
    · simp [exec_rxLf, State.takeIf, h]
    · simp [exec_rxOverflow, State.takeIf, h]

/-- A frame decodes to a request instruction only. -/
theorem decodeFrame_eq_ok {bs : List Byte} {i : Instr} (h : decodeFrame bs = .ok i) :
    ∃ op r, i = requestInstr op r := by
  unfold decodeFrame at h
  split at h
  · cases h; exact ⟨_, _, rfl⟩
  · cases h

/-- Outside `LISTEN` a received byte has no effect, also where it ends a frame. -/
theorem exec_decodeReceived_of_not_rxReady {s : State} (h : s.rxReady = false) (st : AssemblerState)
    (bs : List Byte) (b : Byte) : exec (decodeReceived st bs b) s = .next s := by
  unfold decodeReceived
  split
  · split
    · rename_i i hi
      obtain ⟨op, r, rfl⟩ := decodeFrame_eq_ok hi
      simp [exec_request, h, State.takeIf]
    · simp [exec_rxLf, h, State.takeIf]
  · exact exec_decodeByte_of_not_rxReady h st b

/-- While the host port is not ready no host command has an effect. -/
theorem exec_decodeCommand_of_not_hostReady {s : State} (h : s.hostReady = false) (c : HostCommand) :
    exec (decodeCommand c) s = .next s := by
  unfold decodeCommand
  split_ifs
  · exact exec_hostNop s
  · rw [exec_hostConfigure, State.takeIf_of_not_enabled h]
  · rw [exec_hostSetValue, State.takeIf_of_not_enabled h]
  · rw [exec_hostReserved, State.takeIf_of_not_enabled h]

/-- Settles O40: in each clause the instruction's guard is false. -/
theorem inputsNotEnabledHaveNoEffect : Obligations.InputsNotEnabledHaveNoEffect := by
  intro s
  refine ⟨?host, ?received, ?start, ?idle, ?data, ?overflow⟩
  case host =>
    intro hoff hlisten c
    exact exec_decodeCommand_of_not_hostReady (by simp [State.hostReady, hoff, hlisten]) c
  case received =>
    intro hlisten st bs b
    exact exec_decodeReceived_of_not_rxReady (by simp [State.rxReady, hlisten]) st bs b
  case start =>
    intro hidx
    rw [exec_rxStart, State.takeIf_of_not_enabled (by simp [hidx])]
  case idle =>
    intro hidx b r
    have hguard : (s.rxReady && s.faIdx != 0) = false := by simp [hidx]
    refine ⟨?_, ?_, ?_, ?_, ?_⟩
    · rw [exec_rxLf, State.takeIf_of_not_enabled hguard]
    · rw [exec_rxData, State.takeIf_of_not_enabled (by simp [hidx])]
    · rw [exec_rxOverflow, State.takeIf_of_not_enabled (by simp [hidx])]
    · rw [exec_reqDiscover, State.takeIf_of_not_enabled hguard]
    · rw [exec_reqPoll, State.takeIf_of_not_enabled hguard]
  case data =>
    intro hfull b
    rw [exec_rxData, State.takeIf_of_not_enabled (by simp [Nat.not_lt.2 hfull])]
  case overflow =>
    intro hroom b
    rw [exec_rxOverflow, State.takeIf_of_not_enabled (by simp [Nat.not_le.2 hroom])]

end Sys2Proof.Machine
end

section
/-! The body of a reply as the encoder leaves it in the response buffer: the body's text, cut to the buffer, with no
start marker in it. -/

namespace Sys2Proof.Machine

theorem respAppendAll_nil (max : Nat) (bs : List Byte) : respAppendAll max [] bs = bs.take max :=
  respAppendAll_eq_take max bs [] (Nat.zero_le max)

theorem appendHead_nil (max : Nat) (x : Slot) :
    appendHead max [] x = ([Ascii.bang] ++ hex2 x.devId).take max := by
  simp only [appendHead, respAppend_eq_all, respAppendAll_nil, respAppendAll_take]

theorem encodeDiscovery_eq_take (max : Nat) (x : Slot) : encodeDiscovery max x = (bodyDiscovery x).take max := by
  simp only [encodeDiscovery, bodyDiscovery, appendHead_nil, respAppend_eq_all, quoteAppendAll_eq_all,
    respAppendAll_take, List.append_assoc, List.cons_append, List.nil_append]

theorem encodePoll_eq_take (max : Nat) (x : Slot) : encodePoll max x = (bodyPoll x).take max := by
  simp only [encodePoll, bodyPoll, appendHead_nil, respAppend_eq_all, quoteAppendAll_eq_all,
    respAppendAll_take, List.append_assoc, List.cons_append, List.nil_append]

-- The start marker is written 0x3F#8 here, the form in which simp meets it.

theorem hexDigit_ne_question : ∀ v : Nibble, hexDigit v ≠ 0x3F#8 := by decide

theorem question_not_mem_hex2 (b : Byte) : 0x3F#8 ∉ hex2 b := by
  simp [hex2, (hexDigit_ne_question _).symm]

theorem decDigit_ne_question : ∀ n < 10, decDigit n ≠ 0x3F#8 := by decide

theorem question_not_mem_decOnto (fuel n : Nat) {tail : List Byte} (h : 0x3F#8 ∉ tail) :
    0x3F#8 ∉ decOnto fuel n tail := by
  induction fuel generalizing n tail with
  | zero => exact h
  | succ fuel ih =>
    unfold decOnto
    split
    · rename_i hn
      simp [h, (decDigit_ne_question n hn).symm]
    · refine ih _ ?_
      simp [h, (decDigit_ne_question (n % 10) (Nat.mod_lt _ (by decide))).symm]

theorem question_not_mem_dec (n : Nat) : 0x3F#8 ∉ dec n :=
  question_not_mem_decOnto _ _ List.not_mem_nil

/-- R79, R107: the start marker is one of the bytes that are escaped. -/
theorem question_not_mem_quoteByte (b : Byte) : 0x3F#8 ∉ quoteByte b := by
  unfold quoteByte
  split
  · simp [question_not_mem_hex2]
  · rename_i h
    intro hmem
    obtain rfl := List.mem_singleton.1 hmem
    exact h (by decide)

theorem question_not_mem_quote (bs : List Byte) : 0x3F#8 ∉ quote bs := by
  simp [quote, question_not_mem_quoteByte]

theorem question_not_mem_bodyDiscovery (x : Slot) : Ascii.question ∉ bodyDiscovery x := by
  simp [bodyDiscovery, question_not_mem_hex2, question_not_mem_dec, question_not_mem_quote]

theorem question_not_mem_bodyPoll (x : Slot) : Ascii.question ∉ bodyPoll x := by
  simp [bodyPoll, question_not_mem_hex2, question_not_mem_quote]

/-- What R27 and R202 ask of `resp` while a reply is sent. -/
def replyBodyLegal (max : Nat) (resp : List Byte) : Prop :=
  resp.length ≤ max ∧ Ascii.question ∉ resp ∧ resp ≠ []

theorem replyBodyLegal_take {max : Nat} {body : List Byte} (hmax : 1 ≤ max) (hq : Ascii.question ∉ body)
    (hne : body ≠ []) : replyBodyLegal max (body.take max) := by
  refine ⟨List.length_take_le _ _, fun h => hq (List.mem_of_mem_take h), ?_⟩
  rw [Ne, List.take_eq_nil_iff]
  rintro (h | h)
  · omega
  · exact hne h

theorem replyBodyLegal_encodeDiscovery {max : Nat} (hmax : 1 ≤ max) (x : Slot) :
    replyBodyLegal max (encodeDiscovery max x) := by
  rw [encodeDiscovery_eq_take]
  exact replyBodyLegal_take hmax (question_not_mem_bodyDiscovery x) (by simp [bodyDiscovery])

theorem replyBodyLegal_encodePoll {max : Nat} (hmax : 1 ≤ max) (x : Slot) :
    replyBodyLegal max (encodePoll max x) := by
  rw [encodePoll_eq_take]
  exact replyBodyLegal_take hmax (question_not_mem_bodyPoll x) (by simp [bodyPoll])

end Sys2Proof.Machine
end

section
/-! The registry's invariants (R138) under the writes the block makes to its slots. -/

namespace Sys2Proof.Machine

/-- R138 (a) as a relation between the slots in order: behind a free slot there are only free ones. -/
theorem occupiedFirst_iff_pairwise (slots : List Slot) :
    occupiedFirst slots ↔ slots.Pairwise fun x y => x.desc = [] → y.desc = [] := by
  induction slots with
  | nil => simp [occupiedFirst]
  | cons x xs ih =>
    by_cases hx : x.desc = []
    · have hall : (∀ y ∈ xs, y.desc = []) → xs.Pairwise fun x y => x.desc = [] → y.desc = [] :=
        fun h => List.pairwise_of_forall_mem_list fun _ _ y hy _ => h y hy
      simpa [occupiedFirst, hx] using hall
    · simpa [occupiedFirst, hx] using ih

/-- R138 (b) as a relation between the slots in order. -/
theorem idsDistinct_iff_pairwise (slots : List Slot) :
    idsDistinct slots ↔ slots.Pairwise fun x y => x.desc ≠ [] → y.desc ≠ [] → x.devId ≠ y.devId := by
  simp [idsDistinct, List.Nodup, List.pairwise_map, List.pairwise_filter]

/-- A relation in order survives the overwriting of one element that stands in it to those before and those behind. -/
theorem pairwise_set {α : Type} {R : α → α → Prop} {l : List α} {k : Nat} {a : α} (h : l.Pairwise R)
    (hbefore : ∀ (i : Nat) (x : α), i < k → l[i]? = some x → R x a)
    (hbehind : ∀ (j : Nat) (y : α), k < j → l[j]? = some y → R a y) : (l.set k a).Pairwise R := by
  rw [List.pairwise_iff_getElem] at h ⊢
  intro i j hi hj hij
  rw [List.length_set] at hi hj
  rw [List.getElem_set, List.getElem_set]
  split
  · rename_i hki
    rw [if_neg (by omega)]
    exact hbehind j _ (by omega) (List.getElem?_eq_getElem hj)
  · split
    · exact hbefore i _ (by omega) (List.getElem?_eq_getElem hi)
    · exact h i j hi hj hij

/-- A slot without its reading. The registry's invariants do not speak of readings. -/
def Slot.withoutReading (x : Slot) : Slot := { x with value := Value.zero, haveValue := false }

theorem State.registryLegal_iff_withoutReading (s : State) :
    s.registryLegal ↔ ({ s with slots := s.slots.map Slot.withoutReading } : State).registryLegal := by
  simp [State.registryLegal, occupiedFirst_iff_pairwise, idsDistinct_iff_pairwise, List.pairwise_map,
    Slot.withoutReading]

/-- Two registries that differ in readings only are legal together. -/
theorem State.registryLegal_of_same_registrations {s t : State} (hs : s.registryLegal) (hparams : t.params = s.params)
    (hset : t.setupDone = s.setupDone)
    (hslots : t.slots.map Slot.withoutReading = s.slots.map Slot.withoutReading) : t.registryLegal := by
  rw [State.registryLegal_iff_withoutReading] at hs ⊢
  simpa [hparams, hset, hslots] using hs

theorem map_withoutReading_modify_delivered (slots : List Slot) (k : Nat) :
    (slots.modify k Slot.delivered).map Slot.withoutReading = slots.map Slot.withoutReading := by
  refine List.ext_getElem? fun i => ?_
  simp only [List.getElem?_map, List.getElem?_modify]
  cases slots[i]? with
  | none => rfl
  | some x => by_cases hk : k = i <;> simp [hk, Slot.delivered, Slot.withoutReading]

theorem map_withoutReading_set_withValue {slots : List Slot} {k : Nat} {x : Slot} (h : slots[k]? = some x)
    (v : Value) : (slots.set k (x.withValue v)).map Slot.withoutReading = slots.map Slot.withoutReading := by
  obtain ⟨hk, rfl⟩ := List.getElem?_eq_some_iff.1 h
  have hread : (slots[k].withValue v).withoutReading = (slots.map Slot.withoutReading)[k]'(by simpa using hk) := by
    rw [List.getElem_map]
    rfl
  rw [List.map_set, hread, List.set_getElem_self]

/-- CONFIGURE's slot write keeps the registry legal: before the slot it writes stand occupied slots with other ids,
behind it no slot with its id. -/
theorem State.registryLegal_of_configured {s t : State} {id : Byte} {poll : Nat} {desc unit : List Byte} {k : Nat}
    (hs : s.registryLegal) (hok : configureRefusal s.params id poll desc unit = none) (hdesc : desc ≠ [])
    (hfound : findSlot id s.slots = some k) (hparams : t.params = s.params) (hset : t.setupDone = true)
    (hslots : t.slots = s.slots.set k (configuredSlot id poll desc unit)) : t.registryLegal := by
  obtain ⟨hlen, hfirst, hids, hranges, -⟩ := hs
  obtain ⟨⟨y, hy, hfree⟩, hbefore⟩ := findSlot_some hfound
  rw [occupiedFirst_iff_pairwise] at hfirst
  rw [idsDistinct_iff_pairwise] at hids
  refine ⟨by simp [hslots, hparams, hlen], ?first, ?ids, ?ranges, by simp [hset]⟩
  case first =>
    rw [hslots, occupiedFirst_iff_pairwise]
    refine pairwise_set hfirst (fun i x hi hx hxfree => ?_) fun j z _ _ hd => absurd hd hdesc
    obtain ⟨x', hx', hocc, -⟩ := hbefore i hi
    rw [hx] at hx'
    cases hx'
    exact absurd hxfree hocc
  case ids =>
    rw [hslots, idsDistinct_iff_pairwise]
    refine pairwise_set hids (fun i x hi hx _ _ => ?_) fun j z hj hz _ hzocc => ?_
    · obtain ⟨x', hx', -, hne⟩ := hbefore i hi
      rw [hx] at hx'
      cases hx'
      exact hne
    · obtain ⟨hk, rfl⟩ := List.getElem?_eq_some_iff.1 hy
      obtain ⟨hj', rfl⟩ := List.getElem?_eq_some_iff.1 hz
      have hyocc : s.slots[k].desc ≠ [] := fun h =>
        hzocc (List.pairwise_iff_getElem.1 hfirst k j hk hj' hj h)
      have hyid : s.slots[k].devId = id := hfree.resolve_left hyocc
      exact hyid ▸ List.pairwise_iff_getElem.1 hids k j hk hj' hj hyocc hzocc
  case ranges =>
    rw [hslots, hparams]
    intro x hx
    rcases List.mem_or_eq_of_mem_set hx with hold | rfl
    · exact hranges x hold
    · exact fun _ => configureRefusal_eq_none.1 hok

end Sys2Proof.Machine
end

section
/-! The parts of the invariant, each under the changes a step can make to the fields it reads. -/

namespace Sys2Proof.Machine

-- The phase, the direction and the setup.

theorem Phase.ne_off_of_busy {p : Phase} (h : p.busy = true) : p ≠ .off := by
  rintro rfl
  cases h

theorem Phase.ne_listen_of_busy {p : Phase} (h : p.busy = true) : p ≠ .listen := by
  rintro rfl
  cases h

theorem Phase.busy_of_writing {p : Phase} (h : p.writing = true) : p.busy = true := by
  cases p with
  | off => cases h
  | listen => cases h
  | _ => rfl

/-- The host port is ready in no BUSY phase (R35). -/
theorem State.not_busy_of_hostReady {s : State} (h : s.hostReady = true) : s.phase.busy = false := by
  rcases s.hostReady_iff.1 h with hp | hp <;> simp [hp, Phase.busy]

theorem State.directionLegal_of_off {s : State} (hphase : s.phase = .off) (hde : s.de = .undriven)
    (hset : s.setupDone = false) : s.directionLegal := by
  simp [State.directionLegal, hphase, hde, hset, Phase.busy]

theorem State.directionLegal_of_listen {s : State} (hphase : s.phase = .listen) (hde : s.de = .rx)
    (hset : s.setupDone = true) : s.directionLegal := by
  simp [State.directionLegal, hphase, hde, hset, Phase.busy]

theorem State.directionLegal_of_busy {s : State} (hphase : s.phase.busy = true) (hde : s.de = .tx)
    (hset : s.setupDone = true) : s.directionLegal := by
  simp [State.directionLegal, hphase, hde, hset, Phase.ne_off_of_busy hphase, Phase.ne_listen_of_busy hphase]

-- The frame assembler.

/-- With nothing stored there is no frame to speak of. -/
theorem State.assemblerLegal_of_idle {s : State} (hlen : s.faBuf.length = s.params.maxReq) (hidx : s.faIdx = 0) :
    s.assemblerLegal := by
  simp [State.assemblerLegal, State.frame, hlen, hidx]

/-- Outside `OFF` the phase does not matter to the assembler. -/
theorem State.assemblerLegal_of_phase {s t : State} (hs : s.assemblerLegal) (hparams : t.params = s.params)
    (hbuf : t.faBuf = s.faBuf) (hidx : t.faIdx = s.faIdx) (hphase : t.phase ≠ .off) : t.assemblerLegal := by
  obtain ⟨hlen, hle, -, hhead, hstored⟩ := hs
  simp only [State.assemblerLegal, State.frame, hparams, hbuf, hidx]
  exact ⟨hlen, hle, fun h => absurd h hphase, hhead, hstored⟩

/-- Storing a byte at `fa_idx` puts it behind the frame (R150, R154). -/
theorem State.frame_storeByte {s : State} (b : Byte) (h : s.faIdx < s.faBuf.length) :
    (s.storeByte s.faIdx b).frame = s.frame ++ [b] := by
  simp [State.frame, State.storeByte, List.take_add_one, h, List.take_set_of_le]

theorem State.assemblerLegal_storeByte {s : State} {b : Byte} (hs : s.assemblerLegal) (hphase : s.phase = .listen)
    (hroom : s.faIdx < s.params.maxReq) (hb : storable b = true) (hstart : s.faIdx = 0 → b = Ascii.question) :
    (s.storeByte s.faIdx b).assemblerLegal := by
  obtain ⟨hlen, -, -, hhead, hstored⟩ := hs
  have hframe := State.frame_storeByte b (hlen ▸ hroom)
  refine ⟨?len, hroom, ?off, fun _ => ?head, ?stored⟩
  case len => simpa using hlen
  case off => intro h; simp [hphase] at h
  case head =>
    rw [hframe]
    by_cases hidx : s.faIdx = 0
    · simp [State.frame, hidx, hstart hidx]
    · simp [List.head?_append, hhead hidx]
  case stored =>
    rw [hframe]
    intro c hc
    rcases List.mem_append.1 hc with h | h
    · exact hstored c h
    · rwa [List.mem_singleton.1 h]

-- The transmit side.

/-- A pending clear stands only while a reply is sent (R30). -/
theorem State.pendingClear_eq_none {s : State} (hs : s.transmitLegal) (hbusy : s.phase.busy = false) :
    s.pendingClear = none := by
  obtain ⟨-, -, -, -, -, hclear⟩ := hs
  cases h : s.pendingClear with
  | none => rfl
  | some k => simp [h, hbusy] at hclear

/-- While no reply is sent the transmit side only has to keep `resp` within its buffer and free of `'?'`. -/
theorem State.transmitLegal_of_not_busy {s : State} (hlen : s.resp.length ≤ s.params.maxResp)
    (hq : Ascii.question ∉ s.resp) (hphase : s.phase.busy = false) (hclear : s.pendingClear = none) :
    s.transmitLegal := by
  refine ⟨hlen, hq, by simp [hphase], ?_, ?_, by simp [hclear]⟩
  all_goals
    intro h
    rw [h] at hphase
    cases hphase

/-- The start of a reply with a legal body, and with a clear that names an occupied slot with a value pending. -/
theorem State.transmitLegal_startReply {s : State} {body : List Byte} {clr : Option Nat}
    (hbody : replyBodyLegal s.params.maxResp body)
    (hclr : clr.all (fun k => s.slots[k]?.any fun x => x.desc != [] && x.haveValue) = true) :
    (s.startReply body clr).transmitLegal := by
  obtain ⟨hlen, hq, hne⟩ := hbody
  refine ⟨hlen, hq, fun _ => hne, ?_, ?_, by simpa [Phase.busy] using hclr⟩
  all_goals intro h; simp at h

/-- While a reply is sent the transmitter moves on within it: the phase and the cursor change and nothing else. -/
theorem State.transmitLegal_move {s : State} {p : Phase} {c : Crc} {i : Nat} (hs : s.transmitLegal)
    (hbusy : s.phase.busy = true) (hp : p.busy = true)
    (hbody : p = .txBody → i < s.resp.length ∧ c = crc16Of (s.resp.take i))
    (hcrc : p = .txCrc → i < 4 ∧ c = crc16Of s.resp) : ((s.setCursor c i).setPhase p).transmitLegal := by
  obtain ⟨hlen, hq, hne, -, -, hclear⟩ := hs
  refine ⟨hlen, hq, fun _ => hne hbusy, hbody, hcrc, ?_⟩
  simpa [hbusy, hp] using hclear

/-- R196: the CRC of the bytes written so far, one byte further. -/
theorem crc16Of_take_succ {bs : List Byte} {i : Nat} {b : Byte} (h : bs[i]? = some b) :
    crc16Of (bs.take (i + 1)) = crc16Step b (crc16Of (bs.take i)) := by
  simp [crc16Of, List.take_add_one, h]

end Sys2Proof.Machine
end

section
/-! Every step of a legal state leads to a legal state. -/

namespace Sys2Proof.Machine

/-- Setup is done in every phase but `OFF` (R23). -/
theorem State.Inv.setupDone_of_ne_off {s : State} (hs : s.Inv) (hphase : s.phase ≠ .off) : s.setupDone = true := by
  obtain ⟨-, ⟨-, -, hset⟩, -⟩ := hs
  exact hset.2 hphase

theorem State.Inv.de_of_busy {s : State} (hs : s.Inv) (hphase : s.phase.busy = true) : s.de = .tx := by
  obtain ⟨-, ⟨htx, -, -⟩, -⟩ := hs
  exact htx.2 hphase

theorem State.Inv.storeByte {s : State} {b : Byte} (hs : s.Inv) (hphase : s.phase = .listen)
    (hroom : s.faIdx < s.params.maxReq) (hb : storable b = true) (hstart : s.faIdx = 0 → b = Ascii.question) :
    (s.storeByte s.faIdx b).Inv := by
  obtain ⟨hparams, hdir, hreg, hasm, htx⟩ := hs
  exact ⟨hparams, hdir, hreg, State.assemblerLegal_storeByte hasm hphase hroom hb hstart, htx⟩

theorem State.Inv.finishSilent {s : State} (hs : s.Inv) (tag : DropTag) : (s.finishSilent tag).Inv := by
  obtain ⟨hparams, hdir, hreg, ⟨hlen, -⟩, htx⟩ := hs
  exact ⟨hparams, hdir, hreg, State.assemblerLegal_of_idle hlen rfl, htx⟩

theorem State.Inv.startReply {s : State} {body : List Byte} {clr : Option Nat} (hs : s.Inv)
    (hphase : s.phase = .listen) (hbody : replyBodyLegal s.params.maxResp body)
    (hclr : clr.all (fun k => s.slots[k]?.any fun x => x.desc != [] && x.haveValue) = true) :
    (s.startReply body clr).Inv := by
  have hset := hs.setupDone_of_ne_off (by simp [hphase])
  obtain ⟨hparams, -, hreg, hasm, -⟩ := hs
  exact ⟨hparams, State.directionLegal_of_busy rfl rfl hset, hreg,
    State.assemblerLegal_of_phase hasm rfl rfl rfl (by simp), State.transmitLegal_startReply hbody hclr⟩

/-- The slot writes of the host port: no reply is being sent, so only the registry is at stake. -/
theorem State.Inv.writeSlot {s : State} {k : Nat} {x : Slot} (hs : s.Inv) (hready : s.hostReady = true)
    (hreg : (s.writeSlot k x).registryLegal) : (s.writeSlot k x).Inv := by
  obtain ⟨hparams, hdir, -, hasm, htx⟩ := hs
  have hbusy := State.not_busy_of_hostReady hready
  have hclear := State.pendingClear_eq_none htx hbusy
  obtain ⟨hlen, hq, -⟩ := htx
  exact ⟨hparams, hdir, hreg, hasm, State.transmitLegal_of_not_busy hlen hq hbusy hclear⟩

theorem State.Inv.setUp {s : State} {k : Nat} {x : Slot} (hs : s.Inv) (hready : s.hostReady = true)
    (hreg : (s.writeSlot k x).doSetup.registryLegal) : (s.writeSlot k x).doSetup.Inv := by
  obtain ⟨hparams, -, -, hasm, htx⟩ := hs
  have hclear := State.pendingClear_eq_none htx (State.not_busy_of_hostReady hready)
  obtain ⟨hlen, hq, -⟩ := htx
  exact ⟨hparams, State.directionLegal_of_listen rfl rfl rfl, hreg,
    State.assemblerLegal_of_phase hasm rfl rfl rfl (by simp), State.transmitLegal_of_not_busy hlen hq rfl hclear⟩

/-- Every effect of an instruction keeps the invariant. -/
theorem Effect.keeps_inv {s t : State} (hs : s.Inv) (h : Effect s t) : t.Inv := by
  have hinv := hs
  obtain ⟨⟨-, hmaxReq, hmaxResp, -⟩, -, hreg, -, -⟩ := hs
  cases h with
  | unchanged => exact hinv
  | frameStarted hphase hidx =>
    have hstored := hinv.storeByte (b := Ascii.question) hphase (by omega) rfl fun _ => rfl
    rwa [hidx] at hstored
  | byteStored hphase hidx hroom hb => exact hinv.storeByte hphase hroom hb fun h => absurd h hidx
  | silent => exact hinv.finishSilent _
  | discoveryReply hphase => exact hinv.startReply hphase (replyBodyLegal_encodeDiscovery hmaxResp _) rfl
  | pollReply hphase _ hfound hvalue =>
    obtain ⟨hslot, hocc, -⟩ := lookup_some hfound
    exact hinv.startReply hphase (replyBodyLegal_encodePoll hmaxResp _) (by simp [hslot, hocc, hvalue])
  | refused => exact hinv
  | dropped => exact hinv
  | valueSet hready hfound =>
    obtain ⟨hslot, -, -⟩ := lookup_some hfound
    exact hinv.writeSlot hready
      (State.registryLegal_of_same_registrations hreg rfl rfl (map_withoutReading_set_withValue hslot _))
  | slotConfigured hready hok hdesc hfound hset =>
    exact hinv.writeSlot hready (State.registryLegal_of_configured hreg hok hdesc hfound rfl hset rfl)
  | setUp hready hok hdesc hfound =>
    exact hinv.setUp hready (State.registryLegal_of_configured hreg hok hdesc hfound rfl rfl rfl)

/-- The transmitter moves on within a reply; what `tx_pos` and `crc_acc` have to be depends on the phase it enters. -/
theorem State.Inv.move {s : State} {p : Phase} {c : Crc} {i : Nat} (hs : s.Inv) (hbusy : s.phase.busy = true)
    (hp : p.busy = true) (hbody : p = .txBody → i < s.resp.length ∧ c = crc16Of (s.resp.take i))
    (hcrc : p = .txCrc → i < 4 ∧ c = crc16Of s.resp) : ((s.setCursor c i).setPhase p).Inv := by
  have hde := hs.de_of_busy hbusy
  have hset := hs.setupDone_of_ne_off (Phase.ne_off_of_busy hbusy)
  obtain ⟨hparams, -, hreg, hasm, htx⟩ := hs
  exact ⟨hparams, State.directionLegal_of_busy hp hde hset, hreg,
    State.assemblerLegal_of_phase hasm rfl rfl rfl (Phase.ne_off_of_busy hp),
    State.transmitLegal_move htx hbusy hp hbody hcrc⟩

/-- Entering a BUSY phase in which `tx_pos` and `crc_acc` mean nothing. -/
theorem State.Inv.setPhase {s : State} {p : Phase} (hs : s.Inv) (hbusy : s.phase.busy = true) (hp : p.busy = true)
    (hbody : p ≠ .txBody) (hcrc : p ≠ .txCrc) : (s.setPhase p).Inv :=
  hs.move (c := s.crcAcc) (i := s.txPos) hbusy hp (fun h => absurd h hbody) fun h => absurd h hcrc

/-- Moving the cursor within the phase. -/
theorem State.Inv.setCursor {s : State} {c : Crc} {i : Nat} (hs : s.Inv) (hbusy : s.phase.busy = true)
    (hbody : s.phase = .txBody → i < s.resp.length ∧ c = crc16Of (s.resp.take i))
    (hcrc : s.phase = .txCrc → i < 4 ∧ c = crc16Of s.resp) : (s.setCursor c i).Inv :=
  hs.move (p := s.phase) hbusy hbusy hbody hcrc

/-- Writing one byte of a reply (R195 to R198). -/
theorem State.Inv.advance {s : State} {b : Byte} (hs : s.Inv) (h : s.txByte = some b) : (s.advance b).Inv := by
  have hbusy : s.phase.busy = true := Phase.busy_of_writing (State.txByte_writing h)
  have hinv := hs
  obtain ⟨-, -, -, -, ⟨-, -, hne, hbody, hcrc, -⟩⟩ := hs
  rcases State.advance_cases h with
    ⟨hp, -, e⟩ | ⟨hp, hb, ⟨hlast, e⟩ | ⟨hmore, e⟩⟩ | ⟨hp, -, ⟨-, e⟩ | ⟨hmore, e⟩⟩ | ⟨hp, -, e⟩ | ⟨hp, -, e⟩ <;> rw [e]
  case inl => exact hinv.move hbusy rfl (fun _ => ⟨List.length_pos_iff.2 (hne hbusy), rfl⟩) nofun
  case inr.inl.inl =>
    obtain ⟨-, hacc⟩ := hbody hp
    refine hinv.move hbusy rfl nofun fun _ => ⟨by decide, ?_⟩
    rw [hacc, ← crc16Of_take_succ hb, hlast, List.take_length]
  case inr.inl.inr =>
    obtain ⟨hpos, hacc⟩ := hbody hp
    refine hinv.setCursor hbusy (fun _ => ⟨by omega, ?_⟩) fun h' => by simp [hp] at h'
    rw [hacc, crc16Of_take_succ hb]
  case inr.inr.inl.inl => exact hinv.setPhase hbusy rfl nofun nofun
  case inr.inr.inl.inr =>
    obtain ⟨hpos, hacc⟩ := hcrc hp
    exact hinv.setCursor hbusy (fun h' => by simp [hp] at h') fun _ => ⟨by omega, hacc⟩
  case inr.inr.inr.inl => exact hinv.setPhase hbusy rfl nofun nofun
  case inr.inr.inr.inr => exact hinv.setPhase hbusy rfl nofun nofun

/-- The invariant reads neither what has been written nor the flag `txc`. -/
theorem State.Inv.emit_clearTxc {s : State} (hs : s.Inv) (o : OutLabel) : ((s.emit o).clearTxc).Inv := hs

/-- The end of a reply (R199, R224) clears at most a reading's mark. -/
theorem State.Inv.endReply {s : State} (hs : s.Inv) (hphase : s.phase = .txDrain) : s.endReply.Inv := by
  have hset := hs.setupDone_of_ne_off (by simp [hphase])
  obtain ⟨hparams, -, hreg, ⟨hbuf, -⟩, ⟨hlen, hq, -⟩⟩ := hs
  rw [State.endReply_eq]
  refine ⟨hparams, State.directionLegal_of_listen rfl rfl hset, ?_, State.assemblerLegal_of_idle hbuf rfl,
    State.transmitLegal_of_not_busy hlen hq rfl rfl⟩
  refine State.registryLegal_of_same_registrations hreg rfl rfl ?_
  cases s.pendingClear with
  | none => rfl
  | some k => exact map_withoutReading_modify_delivered s.slots k

/-- A registry of free slots is legal. -/
theorem State.registryLegal_of_free {s : State} (h : s.slots = List.replicate s.params.nSlots Slot.free) :
    s.registryLegal := by
  have hfree : ∀ x ∈ s.slots, x.desc = [] := by
    rw [h]
    intro x hx
    rw [List.eq_of_mem_replicate hx]
    rfl
  refine ⟨by simp [h], fun x hx => hfree x ((List.dropWhile_sublist _).subset hx), ?ids,
    fun x hx hd => absurd (hfree x hx) hd, fun _ => hfree⟩
  case ids =>
    rw [idsDistinct_iff_pairwise]
    exact List.pairwise_of_forall_mem_list fun x hx _ _ hd => absurd (hfree x hx) hd

theorem State.Inv.hardReset {s : State} (hs : s.Inv) : s.hardReset.Inv := by
  obtain ⟨hparams, -⟩ := hs
  exact ⟨hparams, State.directionLegal_of_off rfl rfl rfl, State.registryLegal_of_free rfl,
    State.assemblerLegal_of_idle (by simp) rfl, State.transmitLegal_of_not_busy (by simp) (by simp) rfl rfl⟩

/-- Every label that is enabled keeps the invariant. -/
theorem State.onLabel_keeps_inv {s t : State} {l : Label} (hs : s.Inv) (he : s.labelEnabled l = true)
    (h : s.onLabel l = .next t) : t.Inv := by
  cases l with
  | turnElapsed =>
    have hphase : s.phase = .txTurn := by simpa [State.labelEnabled] using he
    cases h
    exact hs.setPhase (by rw [hphase]; rfl) rfl nofun nofun
  | settleElapsed =>
    have hphase : s.phase = .txSettle := by simpa [State.labelEnabled] using he
    cases h
    exact hs.setPhase (by rw [hphase]; rfl) rfl nofun nofun
  | txWrite =>
    obtain ⟨b, hb, rfl⟩ := State.transmit_next h
    exact (hs.advance hb).emit_clearTxc _
  | txComplete =>
    obtain ⟨hphase, -⟩ : s.phase = .txDrain ∧ s.txc = true := by simpa [State.labelEnabled] using he
    cases h
    exact hs.endReply hphase
  | rst => cases h; exact hs.hardReset

/-- Settles O55: the state in which a step is taken is legal, since the invariant reads neither pins nor inputs; an
instruction keeps it by its effect, a label where it is enabled. -/
theorem everyStepKeepsTheInvariant : Obligations.EveryStepKeepsTheInvariant := by
  intro s t hs h
  obtain ⟨ready, txc, rest, -, hcases⟩ := step_cases s
  have hu : ({ s with txReady := ready, txc := txc, inputs := rest } : State).Inv := hs
  rcases hcases with ⟨-, hstep⟩ | ⟨c, -, -, -, hstep⟩ | ⟨b, -, -, -, hstep⟩ | ⟨l, -, he, -, hstep⟩ <;>
    rw [hstep] at h
  case inl => cases h; exact hu
  case inr.inl => exact (exec_effect h).keeps_inv hu
  case inr.inr.inl => exact (exec_effect h).keeps_inv hu
  case inr.inr.inr => exact State.onLabel_keeps_inv hu he h

end Sys2Proof.Machine
end

section
/-! What a byte, a frame and a host command decode to, and which of the decoded instructions are well formed. -/

namespace Sys2Proof

theorem storable_iff (b : Byte) : storable b = true ↔ b ≠ Ascii.cr ∧ b ≠ Ascii.lf := by
  simp [storable]

-- Received bytes, by the state of the assembler.

theorem decodeByte_idle_of_ne {b : Byte} (h : b ≠ Ascii.question) : decodeByte .idle b = .rxDiscard b := if_neg h

theorem decodeByte_accumulating_of_storable {b : Byte} (h : storable b = true) :
    decodeByte .accumulating b = .rxData b := by
  obtain ⟨hcr, hlf⟩ := (storable_iff b).1 h
  exact (if_neg hcr).trans (if_neg hlf)

theorem decodeByte_full_of_storable {b : Byte} (h : storable b = true) : decodeByte .full b = .rxOverflow b := by
  obtain ⟨hcr, hlf⟩ := (storable_iff b).1 h
  exact (if_neg hcr).trans (if_neg hlf)

/-- R70: every byte has a class in every state of the assembler, and the class's operand is one it can carry. -/
theorem decodeByte_wellFormed (st : AssemblerState) (b : Byte) : (decodeByte st b).wellFormed = true := by
  by_cases hs : storable b = true
  · cases st with
    | idle =>
      by_cases hq : b = Ascii.question
      · rw [hq]; rfl
      · rw [decodeByte_idle_of_ne hq]; exact bne_iff_ne.2 hq
    | accumulating => rw [decodeByte_accumulating_of_storable hs]; exact hs
    | full => rw [decodeByte_full_of_storable hs]; exact hs
  · have hb : b = Ascii.cr ∨ b = Ascii.lf := by
      rw [storable_iff] at hs
      tauto
    rcases hb with rfl | rfl <;> cases st <;> rfl

-- Host commands, by their op (R80).

theorem decodeCommand_of_op_zero {c : HostCommand} (h : c.op = 0#2) : decodeCommand c = .hostNop := by
  simp [decodeCommand, h]

theorem decodeCommand_of_op_one {c : HostCommand} (h : c.op = 1#2) :
    decodeCommand c = .hostConfigure c.id c.poll c.desc c.unit := by
  simp [decodeCommand, h]

theorem decodeCommand_of_op_two {c : HostCommand} (h : c.op = 2#2) : decodeCommand c = .hostSetValue c.id c.value := by
  simp [decodeCommand, h]

theorem decodeCommand_of_op_three {c : HostCommand} (h : c.op = 3#2) : decodeCommand c = .hostReserved := by
  simp [decodeCommand, h]

theorem decodeCommand_wellFormed (c : HostCommand) : (decodeCommand c).wellFormed = true := by
  unfold decodeCommand
  split_ifs <;> rfl

-- Request frames.

theorem requestInstr_wellFormed (op : Opcode) (r : Request) : (requestInstr op r).wellFormed = r.wellFormed := by
  cases op <;> rfl

/-- R72, R170: the frames that decode, and to what. -/
theorem decodeFrame_eq_ok_iff {bs : List Byte} {i : Instr} :
    decodeFrame bs = .ok i ↔ ∃ op r, i = requestInstr op r ∧ bs = r.bytes op := by
  constructor
  · intro h
    unfold decodeFrame at h
    split at h
    · rename_i op r hsplit
      cases h
      exact ⟨op, r, rfl, Machine.splitFrame_eq_ok.1 hsplit⟩
    · cases h
  · rintro ⟨op, r, rfl, rfl⟩
    exact Machine.decodeFrame_bytes op r

theorem storable_opcodeByte (op : Opcode) : storable op.byte = true := by cases op <;> rfl

/-- The three bytes of a frame that its shape fixes are storable, so the free ones decide. -/
theorem Request.wellFormed_iff (op : Opcode) (r : Request) :
    r.wellFormed = true ↔ ∀ b ∈ r.bytes op, storable b = true := by
  have hq : storable Ascii.question = true := rfl
  have hp : storable Ascii.pipe = true := rfl
  simp only [Request.wellFormed, Request.bytes, Request.covered, Bool.and_eq_true, List.cons_append, List.nil_append,
    List.forall_mem_cons, hq, hp, storable_opcodeByte, true_and, List.not_mem_nil, false_imp_iff, implies_true,
    and_true, and_assoc]

/-- What the block runs for a received byte is well formed, where the bytes stored are (C3). -/
theorem decodeReceived_wellFormed {frame : List Byte} (h : ∀ b ∈ frame, storable b = true) (st : AssemblerState)
    (b : Byte) : (decodeReceived st frame b).wellFormed = true := by
  unfold decodeReceived
  split
  · split
    · rename_i i hi
      obtain ⟨op, r, rfl, rfl⟩ := decodeFrame_eq_ok_iff.1 hi
      rw [requestInstr_wellFormed, r.wellFormed_iff op]
      exact h
    · rfl
  · exact decodeByte_wellFormed st b

/-- Settles O11: a byte class by its assembler state, a request by its frame, a host command by its op. -/
theorem decodeUndoesEncode : Obligations.DecodeUndoesEncode := by
  intro i hi
  cases i with
  | rxStart => rfl
  | rxDiscard b => exact congrArg Except.ok (decodeByte_idle_of_ne (by simpa [Instr.wellFormed] using hi))
  | rxCr => rfl
  | rxLf => rfl
  | rxData b => exact congrArg Except.ok (decodeByte_accumulating_of_storable hi)
  | rxOverflow b => exact congrArg Except.ok (decodeByte_full_of_storable hi)
  | reqDiscover r => exact Machine.decodeFrame_bytes .discover r
  | reqPoll r => exact Machine.decodeFrame_bytes .poll r
  | hostNop => exact congrArg Except.ok (decodeCommand_of_op_zero rfl)
  | hostConfigure id poll desc unit => exact congrArg Except.ok (decodeCommand_of_op_one rfl)
  | hostSetValue id value => exact congrArg Except.ok (decodeCommand_of_op_two rfl)
  | hostReserved => exact congrArg Except.ok (decodeCommand_of_op_three rfl)

/-- Settles O12, by the shape of the frames that decode and the bytes that shape leaves free. -/
theorem framesDecodeOnlyToThemselves : Obligations.FramesDecodeOnlyToThemselves := by
  refine ⟨fun bs i => decodeFrame_eq_ok_iff, fun op r => ?_⟩
  rw [requestInstr_wellFormed]
  exact r.wellFormed_iff op

/-- Settles O9: the classes of a byte are the branches of the decoder, and each op is one of a command's. -/
theorem inputsDecodeByTheirClassAndOp : Obligations.InputsDecodeByTheirClassAndOp :=
  ⟨fun _ => ⟨rfl, rfl, rfl⟩, fun _ =>
    ⟨fun h => congrArg Except.ok (decodeCommand_of_op_zero h), fun h => congrArg Except.ok (decodeCommand_of_op_one h),
      fun h => congrArg Except.ok (decodeCommand_of_op_two h),
      fun h => congrArg Except.ok (decodeCommand_of_op_three h)⟩⟩

/-- Settles O10, by evaluating the decoder on each word. -/
theorem encodingsOfTheSpecDecode : Obligations.EncodingsOfTheSpecDecode := by
  refine ⟨?_, ?_, ?_, ?_, ?_, ?_, ?_, ?_⟩ <;> decide

/-- Settles O13: by the cases of a fetch; the frame a `\n` ends holds only storable bytes in a legal state. -/
theorem fetchedInstructionsAreWellFormed : Obligations.FetchedInstructionsAreWellFormed := by
  intro s s' i hs hfetch
  obtain ⟨-, -, -, ⟨-, -, -, -, hstored⟩, -⟩ := hs
  obtain ⟨ready, txc, rest, -, hcases⟩ := Machine.step_cases s
  rcases hcases with ⟨h, -⟩ | ⟨c, -, -, h, -⟩ | ⟨b, -, -, h, -⟩ | ⟨l, -, -, h, -⟩ <;>
    rw [h] at hfetch <;> cases hfetch
  case inr.inl => exact decodeCommand_wellFormed c
  case inr.inr.inl => exact decodeReceived_wellFormed hstored _ b

end Sys2Proof
end

section
/-! The replies a valid request starts, the delimiters of their bodies, and the reserved host command. -/

namespace Sys2Proof.Machine

-- The bytes of the encoder's texts.

/-- A byte that is none of the three that structure requests and replies: `'!'`, `'?'`, `'|'` (R79). -/
def plain (b : Byte) : Bool := b != Ascii.bang && b != Ascii.question && b != Ascii.pipe

theorem plain_hexDigit : ∀ v : Nibble, plain (hexDigit v) = true := by decide

theorem plain_decDigit : ∀ n < 10, plain (decDigit n) = true := by decide

theorem plain_of_mem_hex2 {x b : Byte} (h : b ∈ hex2 x) : plain b = true := by
  rcases List.mem_pair.1 h with rfl | rfl <;> exact plain_hexDigit _

/-- R110: a decimal text adds digits only. -/
theorem mem_decOnto {fuel n : Nat} {tail : List Byte} {b : Byte} (h : b ∈ decOnto fuel n tail) :
    b ∈ tail ∨ ∃ d < 10, b = decDigit d := by
  induction fuel generalizing n tail with
  | zero => exact .inl h
  | succ fuel ih =>
    unfold decOnto at h
    split at h
    case isTrue hn =>
      rcases List.mem_cons.1 h with rfl | h
      · exact .inr ⟨n, hn, rfl⟩
      · exact .inl h
    case isFalse =>
      rcases ih h with h | h
      · rcases List.mem_cons.1 h with rfl | h
        · exact .inr ⟨n % 10, Nat.mod_lt _ (by decide), rfl⟩
        · exact .inl h
      · exact .inr h

theorem plain_of_mem_dec {n : Nat} {b : Byte} (h : b ∈ dec n) : plain b = true := by
  rcases mem_decOnto h with h | ⟨d, hd, rfl⟩
  · cases h
  · exact plain_decDigit d hd

/-- R107, R108: a byte stands for itself only where it needs no escape, and an escape is a backslash and two digits. -/
theorem plain_of_mem_quoteByte {x b : Byte} (h : b ∈ quoteByte x) : plain b = true := by
  unfold quoteByte at h
  split at h
  case isTrue =>
    rcases List.mem_cons.1 h with rfl | h
    · rfl
    · exact plain_of_mem_hex2 h
  case isFalse hesc =>
    obtain rfl := List.mem_singleton.1 h
    simp only [needsEscape, Bool.or_eq_true, beq_iff_eq, not_or] at hesc
    obtain ⟨⟨⟨⟨-, hbang⟩, hquestion⟩, hpipe⟩, -⟩ := hesc
    simp only [plain, Bool.and_eq_true, bne_iff_ne]
    exact ⟨⟨hbang, hquestion⟩, hpipe⟩

theorem plain_of_mem_quote {bs : List Byte} {b : Byte} (h : b ∈ quote bs) : plain b = true := by
  obtain ⟨x, -, hx⟩ := List.mem_flatMap.1 h
  exact plain_of_mem_quoteByte hx

/-- The bytes of a text that structure it, in their order. -/
def markers (bs : List Byte) : List Byte := bs.filter fun b => !plain b

theorem count_eq_count_markers {c : Byte} (hc : plain c = false) (bs : List Byte) :
    bs.count c = (markers bs).count c := (List.count_filter (by simp [hc])).symm

theorem markers_append (xs ys : List Byte) : markers (xs ++ ys) = markers xs ++ markers ys :=
  List.filter_append _ _

theorem markers_eq_nil {bs : List Byte} (h : ∀ b ∈ bs, plain b = true) : markers bs = [] :=
  List.filter_eq_nil_iff.2 fun b hb => by simp [h b hb]

theorem markers_hex2 (b : Byte) : markers (hex2 b) = [] := markers_eq_nil fun _ => plain_of_mem_hex2

theorem markers_dec (n : Nat) : markers (dec n) = [] := markers_eq_nil fun _ => plain_of_mem_dec

theorem markers_quote (bs : List Byte) : markers (quote bs) = [] := markers_eq_nil fun _ => plain_of_mem_quote

/-- R76, R79: in a discovery body only its own markers structure it. -/
theorem markers_bodyDiscovery (x : Slot) :
    markers (bodyDiscovery x) = [Ascii.bang, Ascii.pipe, Ascii.pipe, Ascii.pipe] := by
  simp only [bodyDiscovery, markers_append, markers_hex2, markers_dec, markers_quote]
  rfl

/-- R77, R79: in a poll body only its own markers structure it. -/
theorem markers_bodyPoll (x : Slot) : markers (bodyPoll x) = [Ascii.bang, Ascii.pipe] := by
  simp only [bodyPoll, markers_append, markers_hex2, markers_quote]
  rfl

/-- Settles O30: `'|'` and `'!'` are not plain, so their counts are those in the body's own markers. -/
theorem replyFieldsAreDelimited : Obligations.ReplyFieldsAreDelimited := by
  intro x
  have hdiscovery {c : Byte} (hc : plain c = false) := count_eq_count_markers hc (bodyDiscovery x)
  have hpoll {c : Byte} (hc : plain c = false) := count_eq_count_markers hc (bodyPoll x)
  rw [hdiscovery (c := 0x7C) rfl, hdiscovery (c := 0x21) rfl, hpoll (c := 0x7C) rfl, hpoll (c := 0x21) rfl,
    markers_bodyDiscovery, markers_bodyPoll]
  decide

-- What a request with the right CRC does.

theorem requestCrcOk_iff (op : Opcode) (r : Request) :
    requestCrcOk op r = true ↔ requestCrc r = crc16Of (r.covered op) := beq_iff_eq

/-- R173, R175: with the right CRC a discovery request is its handler's work. -/
theorem State.processRequest_discover {s : State} {r : Request} (h : requestCrc r = crc16Of (r.covered .discover)) :
    s.processRequest .discover r = s.discovery (requestId r) := if_pos ((requestCrcOk_iff _ _).2 h)

/-- R173, R175: with the right CRC a poll request is its handler's work. -/
theorem State.processRequest_poll {s : State} {r : Request} (h : requestCrc r = crc16Of (r.covered .poll)) :
    s.processRequest .poll r = s.poll (requestId r) := if_pos ((requestCrcOk_iff _ _).2 h)

theorem State.discovery_of_lookup {s : State} {id : Byte} {k : Nat} {x : Slot} (h : lookup id s.slots = some (k, x)) :
    s.discovery id = s.startReply ((bodyDiscovery x).take s.params.maxResp) none := by
  simp only [State.discovery, h, encodeDiscovery_eq_take]

theorem State.poll_of_lookup {s : State} {id : Byte} {k : Nat} {x : Slot} (h : lookup id s.slots = some (k, x))
    (hv : x.haveValue = true) :
    s.poll id = s.startReply ((bodyPoll x).take s.params.maxResp) (some k) := by
  simp only [State.poll, h, hv, if_true, encodePoll_eq_take]

/-- Settles O21: the request passes its CRC check, and the handler starts the reply with the encoder's text. -/
theorem discoveryStartsItsReply : Obligations.DiscoveryStartsItsReply := by
  intro s r k x hphase hidx hcrc hfound
  rw [exec_reqDiscover, State.takeIf_of_enabled (s.frameEnds hphase hidx), State.processRequest_discover hcrc,
    State.discovery_of_lookup hfound]
  rfl

/-- Settles O22, as the discovery, with the slot found recorded for the clear. -/
theorem pollStartsItsReply : Obligations.PollStartsItsReply := by
  intro s r k x hphase hidx hcrc hfound hvalue
  rw [exec_reqPoll, State.takeIf_of_enabled (s.frameEnds hphase hidx), State.processRequest_poll hcrc,
    State.poll_of_lookup hfound hvalue]
  rfl

/-- Settles O39: the port is ready in both phases, and the refusal writes the mark and its reason. -/
theorem reservedCommandOnlySetsTheMark : Obligations.ReservedCommandOnlySetsTheMark := by
  intro s hphase
  rw [exec_hostReserved, State.takeIf_of_enabled (s.hostReady_iff.2 hphase)]
  rfl

end Sys2Proof.Machine
end

section
/-! The request a master writes for an id: its bytes, and what the block reads from them. -/

namespace Sys2Proof.Machine

theorem hexValue_hexDigit : ∀ v : Nibble, hexValue (hexDigit v) = v := by decide

/-- R111: the two digits of a byte read back as the byte. -/
theorem hexPair_hex2 (b : Byte) : hexPair (hexDigit (b.extractLsb' 4 4)) (hexDigit (b.extractLsb' 0 4)) = b := by
  simp only [hexPair, hexValue_hexDigit]
  ext i hi
  interval_cases i <;> simp

/-- R111: the four digits of a CRC read back as the CRC. -/
theorem hexQuad_hex4 (x : Crc) :
    hexQuad (hexDigit (x.extractLsb' 12 4)) (hexDigit (x.extractLsb' 8 4)) (hexDigit (x.extractLsb' 4 4))
      (hexDigit (x.extractLsb' 0 4)) = x := by
  simp only [hexQuad, hexValue_hexDigit]
  ext i hi
  interval_cases i <;> simp

theorem storable_hexDigit : ∀ v : Nibble, storable (hexDigit v) = true := by decide

/-- The free bytes of the request a master writes for an id. -/
def masterRequest (op : Opcode) (id : Byte) : Request :=
  let crc := crc16Of ([Ascii.question] ++ hex2 id ++ [Ascii.colon, op.byte, Ascii.pipe])
  { idHi := hexDigit (id.extractLsb' 4 4)
    idLo := hexDigit (id.extractLsb' 0 4)
    sep := Ascii.colon
    crc3 := hexDigit (crc.extractLsb' 12 4)
    crc2 := hexDigit (crc.extractLsb' 8 4)
    crc1 := hexDigit (crc.extractLsb' 4 4)
    crc0 := hexDigit (crc.extractLsb' 0 4) }

theorem requestFor_eq_bytes (op : Opcode) (id : Byte) : requestFor op id = (masterRequest op id).bytes op := rfl

theorem masterRequest_wellFormed (op : Opcode) (id : Byte) : (masterRequest op id).wellFormed = true := by
  simp only [Request.wellFormed, masterRequest, storable_hexDigit, Bool.and_self]
  rfl

theorem requestCrc_masterRequest (op : Opcode) (id : Byte) :
    requestCrc (masterRequest op id) = crc16Of ((masterRequest op id).covered op) := hexQuad_hex4 _

theorem requestId_masterRequest (op : Opcode) (id : Byte) : requestId (masterRequest op id) = id := hexPair_hex2 id

/-- Settles O24, by the request made of the digits the master writes. -/
theorem requestForAnIdIsAccepted : Obligations.RequestForAnIdIsAccepted := fun op id =>
  ⟨masterRequest op id, requestFor_eq_bytes op id,
    (requestInstr_wellFormed op _).trans (masterRequest_wellFormed op id), requestCrc_masterRequest op id,
    requestId_masterRequest op id⟩

end Sys2Proof.Machine
end

section
/-! Runs over received bytes: each byte is stored behind the frame or left out, and the `\n` behind the bytes of a
request runs its handler. -/

namespace Sys2Proof.Machine

theorem run_one {s t : State} (h : step s = .next t) : core.run 1 s = .next t :=
  (run_succ 0 h).trans (run_zero t)

/-- One run after another. -/
theorem run_trans {s t u : State} {n m : Nat} (h : core.run n s = .next t) (h' : core.run m t = .next u) :
    core.run (n + m) s = .next u := (run_add n m h).trans h'

/-- In `LISTEN`, `s.holding bs` differs from `s` in the assembler only. -/
theorem State.holding_of_listen {s : State} (h : s.phase = .listen) (bs : List Byte) :
    s.holding bs = { s with faBuf := bs ++ s.faBuf.drop bs.length, faIdx := bs.length } := by
  rw [State.holding, ← h]

theorem State.frame_holding (s : State) (bs : List Byte) : (s.holding bs).frame = bs := by
  simp [State.frame]

/-- With a byte stored and room for another the assembler is in `ACCUMULATING`. -/
theorem State.assembler_of_room {s : State} (hidx : s.faIdx ≠ 0) (hroom : s.faIdx < s.params.maxReq) :
    s.assembler = .accumulating := by
  rw [State.assembler, if_neg hidx, if_pos hroom]

/-- Storing the next byte of a frame is holding the frame with that byte behind it. -/
theorem State.storeByte_holding {s : State} {bs : List Byte} (b : Byte) (h : bs.length < s.faBuf.length) :
    (s.holding bs).storeByte bs.length b = s.holding (bs ++ [b]) := by
  have hbuf : (bs ++ s.faBuf.drop bs.length).set bs.length b = bs ++ [b] ++ s.faBuf.drop (bs ++ [b]).length := by
    rw [List.set_append_right _ _ (Nat.le_refl _), Nat.sub_self, List.drop_eq_getElem_cons h, List.set_cons_zero]
    simp
  simp [State.storeByte, State.holding, hbuf]

/-- R150: a `'?'` in `IDLE` begins the frame. -/
theorem step_start {s : State} {rest : List Input} (hphase : s.phase = .listen) (hidx : s.faIdx = 0)
    (hbuf : 0 < s.faBuf.length) (h : s.inputs = .rx Ascii.question :: rest) :
    step s = .next ((s.holding [Ascii.question]).withInputs rest) := by
  have hclass : decodeReceived s.assembler s.frame Ascii.question = .rxStart := by
    rw [s.assembler_eq_idle_iff.2 hidx]
    rfl
  have hempty : s.holding [] = s := by
    rw [State.holding_of_listen hphase, List.nil_append, List.length_nil, List.drop_zero, ← hidx]
  have hstore : s.storeByte 0 Ascii.question = s.holding [Ascii.question] := by
    simpa [hempty] using State.storeByte_holding (bs := []) Ascii.question hbuf
  rw [step_rx h (s.rxReady_iff.2 hphase), hclass, exec_rxStart,
    State.takeIf_of_enabled (by simp [State.rxReady, hphase, hidx]), ← hstore]
  rfl

/-- R154: a storable byte received with room is put behind the frame. -/
theorem step_data {s : State} {bs : List Byte} {b : Byte} {rest : List Input} (hbs : bs ≠ [])
    (hroom : bs.length < s.params.maxReq) (hbuf : s.faBuf.length = s.params.maxReq) (hb : storable b = true) :
    step ((s.holding bs).withInputs (.rx b :: rest)) = .next ((s.holding (bs ++ [b])).withInputs rest) := by
  have hidx : bs.length ≠ 0 := mt List.eq_nil_of_length_eq_zero hbs
  have hclass (st : List Byte) : decodeReceived .accumulating st b = .rxData b := by
    rw [decodeReceived_eq_decodeByte, decodeByte_accumulating_of_storable hb]
    simp [decodeByte_accumulating_of_storable hb]
  rw [step_rx rfl rfl, State.assembler_of_room hidx hroom, hclass, exec_rxData,
    State.takeIf_of_enabled (by simp [State.rxReady, hbs, hroom, hb]), ← State.storeByte_holding b (hbuf ▸ hroom)]
  rfl

/-- R152: a `\r` inside a frame is left out. -/
theorem step_cr {s : State} {bs : List Byte} {rest : List Input} (hbs : bs ≠ []) :
    step ((s.holding bs).withInputs (.rx Ascii.cr :: rest)) = .next ((s.holding bs).withInputs rest) := by
  have hne : (s.holding bs).assembler ≠ .idle := by
    rw [Ne, State.assembler_eq_idle_iff]
    exact mt List.eq_nil_of_length_eq_zero hbs
  have hclass {st : AssemblerState} (hst : st ≠ .idle) (frame : List Byte) :
      decodeReceived st frame Ascii.cr = .rxCr := by
    cases st with
    | idle => exact absurd rfl hst
    | _ => rfl
  rw [step_rx rfl rfl]
  exact (congrArg (exec · _) (hclass hne _)).trans (exec_rxCr _)

/-- R71, R156: the bytes received behind `frame`, every `\r` left out, as long as they fit. -/
theorem run_received {s : State} (hbuf : s.faBuf.length = s.params.maxReq) (rest : List Input) (bs : List Byte) :
    ∀ {frame : List Byte}, frame ≠ [] → Ascii.lf ∉ bs →
      frame.length + (bs.filter fun b => b != Ascii.cr).length ≤ s.params.maxReq →
      core.run bs.length ((s.holding frame).withInputs (bs.map Input.rx ++ rest)) =
        .next ((s.holding (frame ++ bs.filter fun b => b != Ascii.cr)).withInputs rest) := by
  induction bs with
  | nil =>
    intro frame _ _ _
    rw [List.filter_nil, List.append_nil]
    exact run_zero _
  | cons b bs ih =>
    intro frame hne hlf hroom
    obtain ⟨hb, hlf'⟩ : Ascii.lf ≠ b ∧ Ascii.lf ∉ bs := by simpa using hlf
    by_cases hcr : b = Ascii.cr
    · subst hcr
      exact (run_succ _ (step_cr hne)).trans (ih hne hlf' hroom)
    · have hkept : (b :: bs).filter (fun b => b != Ascii.cr) = b :: bs.filter fun b => b != Ascii.cr :=
        List.filter_cons_of_pos (bne_iff_ne.2 hcr)
      rw [hkept, List.length_cons] at hroom
      have hstep := step_data (rest := bs.map Input.rx ++ rest) hne (by omega) hbuf ((storable_iff b).2 ⟨hcr, hb.symm⟩)
      rw [hkept, List.append_cons]
      exact (run_succ _ hstep).trans (ih (by simp) hlf' (by rw [List.length_append, List.length_singleton]; omega))

/-- R71, R150: the bytes received from `IDLE`, beginning with a `'?'`. -/
theorem run_received_from_idle {s : State} {bs : List Byte} {rest : List Input} (hphase : s.phase = .listen)
    (hidx : s.faIdx = 0) (hbuf : s.faBuf.length = s.params.maxReq) (hlf : Ascii.lf ∉ bs)
    (hroom : (bs.filter fun b => b != Ascii.cr).length + 1 ≤ s.params.maxReq)
    (h : s.inputs = (Ascii.question :: bs).map Input.rx ++ rest) :
    core.run (bs.length + 1) s =
      .next ((s.holding (Ascii.question :: bs.filter fun b => b != Ascii.cr)).withInputs rest) :=
  (run_succ _ (step_start hphase hidx (by omega) h)).trans
    (run_received hbuf rest bs (List.cons_ne_nil _ _) hlf (by rw [List.length_singleton]; omega))

/-- Settles O20: the run leaves the state holding the frame, which differs from the first in the assembler only. -/
theorem receivedBytesAssembleIntoTheFrame : Obligations.ReceivedBytesAssembleIntoTheFrame := by
  intro s bs rest hphase hidx hbuf hlf hroom h
  refine ⟨_, run_received_from_idle hphase hidx hbuf hlf hroom h, State.frame_holding s _, rfl, ?_⟩
  rw [State.holding_of_listen hphase]
  rfl

/-- R153, R178: the `\n` behind the 10 bytes of a request runs the validator on it. -/
theorem step_lf_of_request (s : State) (op : Opcode) (r : Request) (rest : List Input) :
    step ((s.holding (r.bytes op)).withInputs (.rx Ascii.lf :: rest)) =
      .next (((s.holding (r.bytes op)).withInputs rest).processRequest op r) := by
  have hidx : 0 < (s.holding (r.bytes op)).faIdx := Nat.succ_pos _
  have hst : (s.holding (r.bytes op)).assembler ≠ .idle := mt (State.assembler_eq_idle_iff _).1 (by omega)
  have hinstr : decodeReceived (s.holding (r.bytes op)).assembler (s.holding (r.bytes op)).frame Ascii.lf =
      requestInstr op r := by
    rw [State.frame_holding]
    exact decodeReceived_lf_of_frame hst (decodeFrame_bytes op r)
  rw [step_rx rfl rfl]
  refine (congrArg (exec · _) hinstr).trans ?_
  rw [exec_request, State.withInputs_withInputs]
  exact State.takeIf_of_enabled (State.frameEnds _ rfl hidx) _

/-- C3: the request a master writes goes through the assembler whole. -/
theorem run_request {s : State} {op : Opcode} {r : Request} {rest : List Input} (hphase : s.phase = .listen)
    (hidx : s.faIdx = 0) (hbuf : s.faBuf.length = s.params.maxReq) (hroom : 10 ≤ s.params.maxReq)
    (hr : r.wellFormed = true) (h : s.inputs = (r.bytes op).map Input.rx ++ rest) :
    core.run 10 s = .next ((s.holding (r.bytes op)).withInputs rest) := by
  have hstored : ∀ b ∈ (r.bytes op).tail, b ≠ Ascii.cr ∧ b ≠ Ascii.lf := fun b hb =>
    (storable_iff b).1 ((r.wellFormed_iff op).1 hr b (List.mem_of_mem_tail hb))
  have hlf : Ascii.lf ∉ (r.bytes op).tail := fun hmem => (hstored _ hmem).2 rfl
  have hkept : ((r.bytes op).tail.filter fun b => b != Ascii.cr) = (r.bytes op).tail :=
    List.filter_eq_self.2 fun b hb => bne_iff_ne.2 (hstored b hb).1
  have hrun := run_received_from_idle hphase hidx hbuf hlf (by rw [hkept]; exact hroom) h
  rw [hkept] at hrun
  exact hrun

/-- With the CRC a master writes, a request is its handler's work for the id. -/
theorem State.processRequest_masterRequest (s : State) (op : Opcode) (id : Byte) :
    s.processRequest op (masterRequest op id) =
      match op with
      | .discover => s.discovery id
      | .poll => s.poll id := by
  have hcrc := requestCrc_masterRequest op id
  cases op with
  | discover => rw [State.processRequest_discover hcrc, requestId_masterRequest]
  | poll => rw [State.processRequest_poll hcrc, requestId_masterRequest]

/-- Settles O27: ten steps assemble the request, and the step of the `\n` is its handler's work. -/
theorem receivedRequestReachesItsHandler : Obligations.ReceivedRequestReachesItsHandler := by
  intro s op id rest hphase hidx hbuf hroom h
  rw [List.append_assoc] at h
  have hrequest := run_request hphase hidx hbuf hroom (masterRequest_wellFormed op id) h
  have hend := run_one (step_lf_of_request s op (masterRequest op id) rest)
  refine (run_trans hrequest hend).trans ?_
  rw [State.processRequest_masterRequest, State.holding_of_listen hphase]
  cases op <;> rfl

end Sys2Proof.Machine
end

section
/-! A reply from its start to its end: what the block has written after each part, and that it is the wire image. -/

namespace Sys2Proof.Machine

/-- `s` within a reply: in phase `p` with the CRC `c` and the position `i`, the bytes `bs` written so far, and `xs`
still offered. -/
def State.sent (s : State) (p : Phase) (c : Crc) (i : Nat) (bs : List Byte) (xs : List Input) : State :=
  { s with
    phase := p, crcAcc := c, txPos := i, txc := false
    outs := s.outs ++ bs.map fun b => OutLabel.txWrite b s.de
    inputs := xs }

/-- The UART taking a byte: the input on which one is written. -/
abbrev takeByte : Input := .label .txWrite

section
variable {s : State} {p p' : Phase} {c c' : Crc} {i i' : Nat} {b : Byte} {bs : List Byte} {xs : List Input}

theorem State.emit_sent :
    ((s.sent p c i bs xs).emit (.txWrite b s.de)).clearTxc = s.sent p c i (bs ++ [b]) xs := by
  simp [State.sent, State.emit, State.clearTxc]

/-- R38, R200: the UART takes the byte offered, with `txc` cleared in the same step. -/
theorem step_write (hb : (s.withInputs xs).txByte = some b) (hready : s.txReady = true) (h : s.inputs = takeByte :: xs) :
    step s = .next ((((s.withInputs xs).advance b).emit (.txWrite b s.de)).clearTxc) := by
  have hwriting : s.phase.writing = true := State.txByte_writing hb
  rw [step_label h (by simp [State.labelEnabled, hwriting, hready]), State.onLabel, State.transmit, hb]
  rfl

/-- A byte written within a reply, by what the sequencer makes of it. -/
theorem step_sent (hready : s.txReady = true) (hb : (s.sent p c i bs xs).txByte = some b)
    (hadv : (s.sent p c i bs xs).advance b = s.sent p' c' i' bs xs) :
    step (s.sent p c i bs (takeByte :: xs)) = .next (s.sent p' c' i' (bs ++ [b]) xs) := by
  have hstep : step (s.sent p c i bs (takeByte :: xs)) =
      .next ((((s.sent p c i bs xs).advance b).emit (.txWrite b s.de)).clearTxc) := step_write hb hready rfl
  rw [hstep, hadv, State.emit_sent]

/-- R196: a body byte that is not the last. -/
theorem step_bodyByte (hready : s.txReady = true) (hb : s.resp[i]? = some b) (hi : i + 1 ≠ s.resp.length) :
    step (s.sent .txBody c i bs (takeByte :: xs)) = .next (s.sent .txBody (crc16Step b c) (i + 1) (bs ++ [b]) xs) :=
  step_sent hready hb (if_neg hi)

/-- R196: the last body byte. -/
theorem step_lastBodyByte (hready : s.txReady = true) (hb : s.resp[i]? = some b) (hi : i + 1 = s.resp.length) :
    step (s.sent .txBody c i bs (takeByte :: xs)) = .next (s.sent .txCrc (crc16Step b c) 0 (bs ++ [b]) xs) :=
  step_sent hready hb (if_pos hi)

/-- R197: a CRC digit that is not the last. -/
theorem step_crcDigit (hready : s.txReady = true) (hb : (hex4 c)[i]? = some b) (hi : i ≠ 3) :
    step (s.sent .txCrc c i bs (takeByte :: xs)) = .next (s.sent .txCrc c (i + 1) (bs ++ [b]) xs) :=
  step_sent hready hb (if_neg hi)

/-- R197: the last CRC digit. -/
theorem step_lastCrcDigit (hready : s.txReady = true) (hb : (hex4 c)[3]? = some b) :
    step (s.sent .txCrc c 3 bs (takeByte :: xs)) = .next (s.sent .txCr c 3 (bs ++ [b]) xs) :=
  step_sent hready hb rfl

/-- R198: the first terminator byte. -/
theorem step_crByte (hready : s.txReady = true) :
    step (s.sent .txCr c i bs (takeByte :: xs)) = .next (s.sent .txLf c i (bs ++ [Ascii.cr]) xs) :=
  step_sent hready rfl rfl

/-- R198: the second terminator byte; what remains is the UART's to send. -/
theorem step_lfByte (hready : s.txReady = true) :
    step (s.sent .txLf c i bs (takeByte :: xs)) = .next (s.sent .txDrain c i (bs ++ [Ascii.lf]) xs) :=
  step_sent hready rfl rfl

end

-- The parts of a reply.

theorem replicate_takeByte_succ (n : Nat) (xs : List Input) :
    List.replicate (n + 1) takeByte ++ xs = List.replicate n takeByte ++ (takeByte :: xs) := by
  rw [List.replicate_succ', List.append_assoc]
  rfl

/-- R195, R222, R223: both delays end, and the sync byte is written. -/
theorem run_turn {s : State} {xs : List Input} (hphase : s.phase = .txTurn) (hready : s.txReady = true)
    (h : s.inputs = .label .turnElapsed :: .label .settleElapsed :: takeByte :: xs) :
    core.run 3 s = .next (s.sent .txBody 0 0 [Ascii.sync] xs) := by
  have hturn := step_label h (by simp [State.labelEnabled, hphase])
  have hsettle := step_label (s := (s.withInputs (.label .settleElapsed :: takeByte :: xs)).setPhase .txSettle) rfl rfl
  have hsync : step ((s.withInputs (takeByte :: xs)).setPhase .txSync) = .next (s.sent .txBody 0 0 [Ascii.sync] xs) := by
    rw [step_write (s := (s.withInputs (takeByte :: xs)).setPhase .txSync) (b := Ascii.sync) rfl hready rfl]
    simp [State.advance, State.sent, State.emit, State.clearTxc, State.setCursor, State.setPhase, State.withInputs]
  rw [run_succ _ hturn, run_succ _ hsettle]
  exact run_one hsync

/-- R196: before the last body byte is written, `crc_acc` is the CRC of those written. -/
theorem run_bodyBytes {s : State} (hready : s.txReady = true) (k : Nat) :
    ∀ {xs : List Input}, k < s.resp.length →
      core.run k (s.sent .txBody 0 0 [Ascii.sync] (List.replicate k takeByte ++ xs)) =
        .next (s.sent .txBody (crc16Of (s.resp.take k)) k (Ascii.sync :: s.resp.take k) xs) := by
  induction k with
  | zero => intro xs _; exact run_zero _
  | succ k ih =>
    intro xs hk
    have hb : s.resp[k]? = some s.resp[k] := List.getElem?_eq_getElem _
    have hstep := step_bodyByte (c := crc16Of (s.resp.take k)) (bs := Ascii.sync :: s.resp.take k) (xs := xs) hready hb
      (by omega)
    rw [replicate_takeByte_succ, crc16Of_take_succ hb, List.take_succ_eq_append_getElem (by omega)]
    exact run_trans (ih (by omega)) (run_one hstep)

/-- R196: the whole body. -/
theorem run_body {s : State} (hready : s.txReady = true) (hne : s.resp ≠ []) (xs : List Input) :
    core.run s.resp.length (s.sent .txBody 0 0 [Ascii.sync] (List.replicate s.resp.length takeByte ++ xs)) =
      .next (s.sent .txCrc (crc16Of s.resp) 0 (Ascii.sync :: s.resp) xs) := by
  obtain ⟨k, hk⟩ : ∃ k, s.resp.length = k + 1 := Nat.exists_eq_succ_of_ne_zero (mt List.eq_nil_of_length_eq_zero hne)
  have hb : s.resp[k]? = some s.resp[k] := List.getElem?_eq_getElem _
  have hcrc : crc16Step s.resp[k] (crc16Of (s.resp.take k)) = crc16Of s.resp := by
    rw [← crc16Of_take_succ hb, ← hk, List.take_length]
  have hbytes : s.resp.take k ++ [s.resp[k]] = s.resp := by
    rw [← List.take_succ_eq_append_getElem, ← hk, List.take_length]
  have hstep := step_lastBodyByte (c := crc16Of (s.resp.take k)) (bs := Ascii.sync :: s.resp.take k) (xs := xs) hready hb
    hk.symm
  rw [hcrc, List.cons_append, hbytes] at hstep
  rw [hk, replicate_takeByte_succ]
  exact run_trans (run_bodyBytes hready k (by omega)) (run_one hstep)

/-- R197: the four CRC digits. -/
theorem run_crc {s : State} (hready : s.txReady = true) (c : Crc) (bs : List Byte) (xs : List Input) :
    core.run 4 (s.sent .txCrc c 0 bs (List.replicate 4 takeByte ++ xs)) = .next (s.sent .txCr c 3 (bs ++ hex4 c) xs) := by
  rw [hex4, List.append_cons, List.append_cons, List.append_cons]
  exact (run_succ 3 (step_crcDigit hready rfl (by decide))).trans <|
    (run_succ 2 (step_crcDigit hready rfl (by decide))).trans <|
      (run_succ 1 (step_crcDigit hready rfl (by decide))).trans (run_one (step_lastCrcDigit hready rfl))

/-- R199, R201: the UART raises `txc`, and in the step that sees it the reply ends. -/
theorem step_complete {s : State} {rest : List Input} (hphase : s.phase = .txDrain)
    (h : s.inputs = .pin .txcRise :: .label .txComplete :: rest) :
    step s = .next (s.raiseTxc.withInputs rest).endReply := by
  rw [step_pin h]
  exact step_label (s := (s.drivePin .txcRise).withInputs (.label .txComplete :: rest)) rfl
    (by simp [State.labelEnabled, hphase])

/-- R198, R199: the terminator is written, and the reply ends. -/
theorem run_end {s : State} (hready : s.txReady = true) (c : Crc) (i : Nat) (bs : List Byte) (rest : List Input) :
    core.run 3 (s.sent .txCr c i bs (takeByte :: takeByte :: .pin .txcRise :: .label .txComplete :: rest)) =
      .next ((s.sent .txDrain c i (bs ++ [Ascii.cr, Ascii.lf]) rest).raiseTxc.endReply) := by
  rw [List.append_cons]
  exact (run_succ 2 (step_crByte hready)).trans <| (run_succ 1 (step_lfByte hready)).trans <|
    run_one (step_complete rfl rfl)

/-- R78: the bytes of a reply whose body fits the buffer. -/
theorem wire_of_length_le {max : Nat} {body : List Byte} (h : body.length ≤ max) :
    wire max body = Ascii.sync :: body ++ hex4 (crc16Of body) ++ [Ascii.cr, Ascii.lf] := by
  rw [wire, List.take_of_length_le h]
  rfl

/-- R282: the inputs of a reply, cut to its parts. -/
theorem replyInputs_append (n : Nat) (rest : List Input) :
    replyInputs n ++ rest =
      .label .turnElapsed :: .label .settleElapsed :: takeByte ::
        (List.replicate n takeByte ++ (List.replicate 4 takeByte ++
          (takeByte :: takeByte :: .pin .txcRise :: .label .txComplete :: rest))) := by
  have hwrites : n + 7 = 1 + n + 4 + 2 := by omega
  rw [replyInputs, hwrites]
  simp only [List.replicate_add, List.append_assoc]
  rfl

/-- Settles O49: the parts of a reply one after another, and the fields that its end leaves. -/
theorem replySendsItsWireImage : Obligations.ReplySendsItsWireImage := by
  intro s rest hphase hready hne hmax h
  rw [replyInputs_append] at h
  have hcount : s.resp.length + 10 = 3 + s.resp.length + 4 + 3 := by omega
  have hturn := run_turn hphase hready h
  have hdigits := run_trans (run_trans hturn (run_body hready hne _)) (run_crc hready _ _ _)
  have hrun := run_trans hdigits (run_end hready _ _ _ rest)
  rw [← wire_of_length_le hmax, State.endReply_eq] at hrun
  rw [hcount, hrun]
  rfl

end Sys2Proof.Machine
end

section
/-! The CRC-16 unit: its table against the generator, and its fold over a text (R100 to R103). -/

namespace Sys2Proof.Machine

-- The generator as a linear map of the CRC's 16 bits.

theorem crcShift_of_odd {c : Crc} (h : c.getLsbD 0 = true) : crcShift c = (c >>> 1) ^^^ 0xA001 := if_pos h

theorem crcShift_of_even {c : Crc} (h : c.getLsbD 0 = false) : crcShift c = c >>> 1 :=
  if_neg (by rw [h]; decide)

/-- A turn of the generator is linear: it adds 0xA001 for each of the two 1s that are shifted out. -/
theorem crcShift_xor (x y : Crc) : crcShift (x ^^^ y) = crcShift x ^^^ crcShift y := by
  have hbit : (x ^^^ y).getLsbD 0 = (x.getLsbD 0 ^^ y.getLsbD 0) := BitVec.getLsbD_xor
  cases hx : x.getLsbD 0 <;> cases hy : y.getLsbD 0 <;> rw [hx, hy] at hbit
  case false.false =>
    rw [crcShift_of_even hbit, crcShift_of_even hx, crcShift_of_even hy, BitVec.ushiftRight_xor_distrib]
  case false.true =>
    rw [crcShift_of_odd hbit, crcShift_of_even hx, crcShift_of_odd hy, BitVec.ushiftRight_xor_distrib]
    ac_rfl
  case true.false =>
    rw [crcShift_of_odd hbit, crcShift_of_odd hx, crcShift_of_even hy, BitVec.ushiftRight_xor_distrib]
    ac_rfl
  case true.true =>
    rw [crcShift_of_even hbit, crcShift_of_odd hx, crcShift_of_odd hy, BitVec.ushiftRight_xor_distrib,
      BitVec.xor_comm (y >>> 1), BitVec.xor_assoc, ← BitVec.xor_assoc 0xA001, BitVec.xor_self, BitVec.zero_xor]

theorem crcShifts_xor (n : Nat) (x y : Crc) : crcShifts n (x ^^^ y) = crcShifts n x ^^^ crcShifts n y := by
  induction n generalizing x y with
  | zero => rfl
  | succ n ih => simp only [crcShifts, crcShift_xor, ih]

/-- Where only 0s are shifted out, the generator only shifts. -/
theorem crcShifts_of_low_zero {n : Nat} {c : Crc} (h : ∀ i < n, c.getLsbD i = false) : crcShifts n c = c >>> n := by
  induction n generalizing c with
  | zero => simp [crcShifts]
  | succ n ih =>
    have hrest : ∀ i < n, (c >>> 1).getLsbD i = false := fun i hi => by
      simpa [Nat.add_comm] using h (i + 1) (by omega)
    rw [crcShifts, crcShift_of_even (h 0 n.succ_pos), ih hrest, ← BitVec.shiftRight_add, Nat.add_comm]

-- The table.

/-- R100: the table lists, index by index, what the generator makes of the index. -/
theorem crcTable_eq_map : crcTable = (List.range 256).map fun i => crcShifts 8 (BitVec.ofNat 16 i) := by
  decide +kernel

theorem crcTable_getElem? {i : Nat} (h : i < 256) : crcTable[i]? = some (crcShifts 8 (BitVec.ofNat 16 i)) := by
  rw [crcTable_eq_map, List.getElem?_map, List.getElem?_range h, Option.map_some]

/-- Settles O1, from the table as the generator's list. -/
theorem crcTableIsTheGeneratedTable : Obligations.CrcTableIsTheGeneratedTable := by
  refine ⟨?_, rfl, rfl, fun i => crcTable_getElem? i.isLt⟩
  rw [crcTable_eq_map, List.length_map, List.length_range]

/-- R100: the table at a CRC's low byte is that byte after 8 turns. -/
theorem crcTable_getD_low (x : Crc) : crcTable.getD (x &&& 0xFF).toNat 0 = crcShifts 8 (x &&& 0xFF) := by
  have hlt : (x &&& 0xFF).toNat < 256 := by
    rw [BitVec.toNat_and]
    exact Nat.lt_succ_of_le Nat.and_le_right
  have hentry := crcTable_getElem? hlt
  rw [BitVec.ofNat_toNat, BitVec.setWidth_eq] at hentry
  rw [List.getD_eq_getElem?_getD, hentry, Option.getD_some]

/-- 8 turns shift the high byte down and replace the low byte by its table entry. -/
theorem crcShifts_eight (x : Crc) :
    crcShifts 8 x = (x >>> 8) ^^^ crcTable.getD (x &&& 0xFF).toNat 0 := by
  have hsplit : (x &&& 0xFF00) ^^^ (x &&& 0xFF) = x := by
    ext i hi
    interval_cases i <;> simp
  have hhigh : crcShifts 8 (x &&& 0xFF00) = x >>> 8 := by
    rw [crcShifts_of_low_zero fun i hi => by interval_cases i <;> simp]
    ext i hi
    interval_cases i <;> simp
  calc crcShifts 8 x = crcShifts 8 ((x &&& 0xFF00) ^^^ (x &&& 0xFF)) := by rw [hsplit]
    _ = (x >>> 8) ^^^ crcTable.getD (x &&& 0xFF).toNat 0 := by rw [crcShifts_xor, hhigh, crcTable_getD_low]

/-- Settles O2: 8 turns split into the high byte's shift and the low byte's table entry, and the byte added has no bits
in the high byte. -/
theorem crcStepEqualsBitwiseForm : Obligations.CrcStepEqualsBitwiseForm := by
  intro b crc
  have hbyte : b.setWidth 16 >>> 8 = 0#16 := by
    ext i hi
    simp
  rw [crcShifts_eight, BitVec.ushiftRight_xor_distrib, hbyte, BitVec.xor_zero, crc16Step]

-- The fold over a text.

/-- R102: a text's CRC is continued by the bytes after it. -/
theorem crc16Of_append (xs ys : List Byte) :
    crc16Of (xs ++ ys) = ys.foldl (fun c b => crc16Step b c) (crc16Of xs) := List.foldl_append

theorem crc16Step_zero_zero : crc16Step 0 0 = 0 := by decide

/-- Settles O3: the fold over an append, which from the byte 0x00 continues at 0. -/
theorem crcContinuesOverAppend : Obligations.CrcContinuesOverAppend := by
  refine ⟨rfl, crc16Of_append, fun ys => ?_⟩
  rw [crc16Of, List.foldl_cons, crc16Step_zero_zero, crc16Of]

end Sys2Proof.Machine
end

section
/-! Hex digits and the escapes written with them (R79, R104 to R109, R111). -/

namespace Sys2Proof.Machine

theorem toNat_hexValue (c : Byte) : (hexValue c).toNat =
    if 0x30 ≤ c.toNat ∧ c.toNat ≤ 0x39 then c.toNat - 0x30
    else if 0x41 ≤ c.toNat ∧ c.toNat ≤ 0x46 then c.toNat - 0x41 + 10
    else if 0x61 ≤ c.toNat ∧ c.toNat ≤ 0x66 then c.toNat - 0x61 + 10
    else 0 := by
  simp only [hexValue, BitVec.le_def, BitVec.reduceToNat]
  split_ifs
  · simp only [BitVec.toNat_setWidth, BitVec.toNat_sub, BitVec.reduceToNat]
    omega
  · simp only [BitVec.toNat_setWidth, BitVec.toNat_add, BitVec.toNat_sub, BitVec.reduceToNat]
    omega
  · simp only [BitVec.toNat_setWidth, BitVec.toNat_add, BitVec.toNat_sub, BitVec.reduceToNat]
    omega
  · rfl

theorem toNat_hexDigit (v : Nibble) :
    (hexDigit v).toNat = if v.toNat ≤ 9 then 0x30 + v.toNat else 0x61 + (v.toNat - 10) := by
  simp only [hexDigit, BitVec.le_def, BitVec.reduceToNat]
  split_ifs <;> bv_omega

/-- The nibble at bit `k` is a digit of the number in base 16. -/
theorem extractLsb'_four {w : Nat} (x : BitVec w) (k : Nat) :
    x.extractLsb' k 4 = BitVec.ofNat 4 (x.toNat / 2 ^ k % 16) := by
  apply BitVec.eq_of_toNat_eq
  simp [BitVec.extractLsb'_toNat, Nat.shiftRight_eq_div_pow]

/-- Settles O4: by the ranges of `hexValue` and `hexDigit`, the nibbles as base-16 digits, and the round trips. -/
theorem hexDigitsDecodeAndRoundTrip : Obligations.HexDigitsDecodeAndRoundTrip := by
  refine ⟨toNat_hexValue, toNat_hexDigit, fun b => ?_, fun x => ?_, hexPair_hex2, fun x d3 d2 d1 d0 h => ?_⟩
  · have hb : b.toNat / 16 % 16 = b.toNat / 16 := Nat.mod_eq_of_lt (by omega)
    simp [hex2, extractLsb'_four, hb]
  · have hx : x.toNat / 4096 % 16 = x.toNat / 4096 := Nat.mod_eq_of_lt (by omega)
    simp [hex4, extractLsb'_four, hx]
  · simp only [hex4, List.cons.injEq] at h
    obtain ⟨rfl, rfl, rfl, rfl, -⟩ := h
    exact hexQuad_hex4 x

-- Escapes.

/-- R107: the bytes that stand for themselves. -/
theorem needsEscape_eq_false_iff (b : Byte) : needsEscape b = false ↔
    0x20 ≤ b.toNat ∧ b.toNat < 0x7F ∧ b ≠ 0x21 ∧ b ≠ 0x3F ∧ b ≠ 0x7C ∧ b ≠ 0x5C := by
  simp [needsEscape, BitVec.lt_def, BitVec.le_def, and_assoc]

theorem quoteByte_of_needsEscape {b : Byte} (h : needsEscape b = true) : quoteByte b = Ascii.backslash :: hex2 b :=
  if_pos h

theorem quoteByte_of_not_needsEscape {b : Byte} (h : needsEscape b = false) : quoteByte b = [b] :=
  if_neg (by simp [h])

theorem quote_cons (b : Byte) (bs : List Byte) : quote (b :: bs) = quoteByte b ++ quote bs := List.flatMap_cons

theorem quote_append (xs ys : List Byte) : quote (xs ++ ys) = quote xs ++ quote ys := List.flatMap_append

theorem quote_singleton (b : Byte) : quote [b] = quoteByte b := List.flatMap_singleton _ _

/-- R109: a byte that begins no escape stands for itself. -/
theorem unquote_cons_of_ne {b : Byte} (h : b ≠ Ascii.backslash) (rest : List Byte) :
    unquote (b :: rest) = b :: unquote rest := by
  match rest with
  | [] => rfl
  | [_] => rfl
  | _ :: _ :: _ => exact if_neg h

/-- R109: an escape stands for the byte its two digits give. -/
theorem unquote_escape (hi lo : Byte) (rest : List Byte) :
    unquote (Ascii.backslash :: hi :: lo :: rest) = hexPair hi lo :: unquote rest := if_pos rfl

theorem unquote_quoteByte_append (b : Byte) (rest : List Byte) :
    unquote (quoteByte b ++ rest) = b :: unquote rest := by
  cases h : needsEscape b with
  | true =>
    rw [quoteByte_of_needsEscape h]
    exact (unquote_escape _ _ rest).trans (congrArg (· :: unquote rest) (hexPair_hex2 b))
  | false =>
    obtain ⟨-, -, -, -, -, hbackslash⟩ := (needsEscape_eq_false_iff b).1 h
    rw [quoteByte_of_not_needsEscape h]
    exact unquote_cons_of_ne hbackslash rest

/-- Settles O5, by induction on the text: each byte's escape, if it has one, reads back as the byte. -/
theorem unquoteUndoesQuote : Obligations.UnquoteUndoesQuote := by
  intro bs
  induction bs with
  | nil => rfl
  | cons b bs ih => rw [quote_cons, unquote_quoteByte_append, ih]

/-- R79: a printable ASCII byte. -/
def printable (b : Byte) : Prop := 0x20 ≤ b.toNat ∧ b.toNat < 0x7F

theorem printable_hexDigit (v : Nibble) : printable (hexDigit v) := by
  rw [printable, toNat_hexDigit]
  split_ifs <;> omega

/-- R79, R108: an unescaped byte is printable by R107, and an escape is a backslash and two digits. -/
theorem printable_of_mem_quoteByte {x b : Byte} (h : b ∈ quoteByte x) : printable b := by
  cases hesc : needsEscape x with
  | true =>
    rw [quoteByte_of_needsEscape hesc] at h
    rcases List.mem_cons.1 h with rfl | h
    · exact ⟨by decide, by decide⟩
    · rcases List.mem_pair.1 h with rfl | rfl <;> exact printable_hexDigit _
  | false =>
    rw [quoteByte_of_not_needsEscape hesc] at h
    obtain rfl := List.mem_singleton.1 h
    obtain ⟨hlow, hhigh, -⟩ := (needsEscape_eq_false_iff b).1 hesc
    exact ⟨hlow, hhigh⟩

theorem printable_of_mem_quote {bs : List Byte} {b : Byte} (h : b ∈ quote bs) : printable b := by
  obtain ⟨x, -, hx⟩ := List.mem_flatMap.1 h
  exact printable_of_mem_quoteByte hx

theorem plain_iff (b : Byte) : plain b = true ↔ b ≠ Ascii.bang ∧ b ≠ Ascii.question ∧ b ≠ Ascii.pipe := by
  simp only [plain, Bool.and_eq_true, bne_iff_ne, and_assoc]

/-- Settles O6: a byte is quoted by R107's ranges, lists byte by byte, and every byte written is printable and plain. -/
theorem quotedTextHidesDelimiters : Obligations.QuotedTextHidesDelimiters := by
  refine ⟨fun b => ?_, ⟨rfl, quote_append⟩, fun bs b h => ?_⟩
  · rw [quote_singleton]
    split_ifs with h
    · exact quoteByte_of_not_needsEscape ((needsEscape_eq_false_iff b).2 h)
    · exact quoteByte_of_needsEscape (by rwa [← needsEscape_eq_false_iff, Bool.not_eq_false] at h)
  · obtain ⟨hlow, hhigh⟩ := printable_of_mem_quote h
    exact ⟨hlow, hhigh, (plain_iff b).1 (plain_of_mem_quote h)⟩

end Sys2Proof.Machine
end

section
/-! The decimal text of a number (R110). -/

namespace Sys2Proof.Machine

theorem toNat_decDigit {d : Nat} (h : d < 10) : (decDigit d).toNat = 0x30 + d := by
  have hzero : Ascii.zero.toNat = 0x30 := rfl
  rw [decDigit, BitVec.toNat_add, hzero, BitVec.toNat_ofNat]
  omega

theorem decOnto_of_lt {n : Nat} (h : n < 10) (fuel : Nat) (tail : List Byte) :
    decOnto (fuel + 1) n tail = decDigit n :: tail := if_pos h

theorem decOnto_of_ge {n : Nat} (h : ¬ n < 10) (fuel : Nat) (tail : List Byte) :
    decOnto (fuel + 1) n tail = decOnto fuel (n / 10) (decDigit (n % 10) :: tail) := if_neg h

/-- One more decimal digit read after the value `v`, as the statements about decimal texts read it. -/
def readDigit (v : Nat) (b : Byte) : Nat := 10 * v + (b.toNat - 0x30)

theorem readDigit_decDigit {d : Nat} (h : d < 10) (v : Nat) : readDigit v (decDigit d) = 10 * v + d := by
  rw [readDigit, toNat_decDigit h, Nat.add_sub_cancel_left]

/-- R110: the digits put before a text read as the number, and the text's own digits are read on from there. -/
theorem foldl_readDigit_decOnto {fuel n : Nat} (h : n < fuel) (tail : List Byte) :
    (decOnto fuel n tail).foldl readDigit 0 = tail.foldl readDigit n := by
  induction fuel generalizing n tail with
  | zero => omega
  | succ fuel ih =>
    by_cases hn : n < 10
    · rw [decOnto_of_lt hn, List.foldl_cons, readDigit_decDigit hn, Nat.mul_zero, Nat.zero_add]
    · rw [decOnto_of_ge hn, ih (by omega), List.foldl_cons, readDigit_decDigit (Nat.mod_lt _ (by decide)),
        Nat.div_add_mod]

/-- R110: the first digit of a number other than 0 is not the digit 0. -/
theorem head?_decOnto {fuel n : Nat} (h : n < fuel) (hn : n ≠ 0) (tail : List Byte) :
    ∃ d < 10, d ≠ 0 ∧ (decOnto fuel n tail).head? = some (decDigit d) := by
  induction fuel generalizing n tail with
  | zero => omega
  | succ fuel ih =>
    by_cases hlt : n < 10
    · exact ⟨n, hlt, hn, by rw [decOnto_of_lt hlt, List.head?_cons]⟩
    · rw [decOnto_of_ge hlt]
      exact ih (by omega) (by omega) _

theorem toNat_of_mem_dec {n : Nat} {b : Byte} (h : b ∈ dec n) : 0x30 ≤ b.toNat ∧ b.toNat ≤ 0x39 := by
  rcases mem_decOnto h with h | ⟨d, hd, rfl⟩
  · cases h
  · rw [toNat_decDigit hd]
    omega

theorem foldl_readDigit_dec (n : Nat) : (dec n).foldl readDigit 0 = n :=
  foldl_readDigit_decOnto n.lt_succ_self []

theorem head?_dec_ne_zero {n : Nat} (hn : n ≠ 0) : (dec n).head? ≠ some 0x30 := by
  obtain ⟨d, hd, hd0, hhead⟩ := head?_decOnto n.lt_succ_self hn []
  intro hzero
  have hdigit : decDigit d = 0x30 := Option.some.inj (hhead.symm.trans hzero)
  have hvalue : 0x30 = 0x30 + d := (congrArg BitVec.toNat hdigit).symm.trans (toNat_decDigit hd)
  omega

/-- Settles O7, from the digits that `dec` writes, their value and the first of them. -/
theorem decimalTextReadsBack : Obligations.DecimalTextReadsBack :=
  ⟨rfl, fun n => ⟨fun _ => toNat_of_mem_dec, foldl_readDigit_dec n, head?_dec_ne_zero⟩⟩

end Sys2Proof.Machine
end

section
/-! The registry's two searches (R132, R137), and what they find in a legal registry (R138). -/

namespace Sys2Proof.Machine

/-- R132: `find_slot` gives the first slot that is free or holds the id. -/
theorem findSlot_eq_some_iff {id : Byte} {slots : List Slot} {k : Nat} : findSlot id slots = some k ↔
    (∃ x, slots[k]? = some x ∧ (x.desc = [] ∨ x.devId = id)) ∧
      ∀ i < k, ∃ y, slots[i]? = some y ∧ y.desc ≠ [] ∧ y.devId ≠ id := by
  refine ⟨findSlot_some, ?_⟩
  rintro ⟨⟨x, hx, hxid⟩, hbefore⟩
  obtain ⟨hk, rfl⟩ := List.getElem?_eq_some_iff.1 hx
  refine List.findIdx?_eq_some_iff_getElem.2 ⟨hk, by simpa using hxid, fun i hi => ?_⟩
  obtain ⟨y, hy, hyocc, hyid⟩ := hbefore i hi
  obtain ⟨hi', rfl⟩ := List.getElem?_eq_some_iff.1 hy
  simp [hyocc, hyid]

/-- R132: `find_slot` gives none exactly where every slot is occupied with another id. -/
theorem findSlot_eq_none_iff {id : Byte} {slots : List Slot} :
    findSlot id slots = none ↔ ∀ x ∈ slots, x.desc ≠ [] ∧ x.devId ≠ id := by
  simp [findSlot]

/-- R137: `lookup` gives the first slot with the id, with only occupied slots before it. -/
theorem lookup_eq_some_iff {id : Byte} {slots : List Slot} {k : Nat} {x : Slot} :
    lookup id slots = some (k, x) ↔ slots[k]? = some x ∧ x.desc ≠ [] ∧ x.devId = id ∧
      ∀ i < k, ∃ y, slots[i]? = some y ∧ y.desc ≠ [] ∧ y.devId ≠ id := by
  simpa [lookup] using lookupFrom_eq_some (id := id) (slots := slots) (i := 0) (k := k) (x := x)

/-- Settles O31: the search stops at the first slot of either kind, and nowhere only where there is none. -/
theorem findSlotGivesTheLeastFreeOrMatching : Obligations.FindSlotGivesTheLeastFreeOrMatching :=
  fun _ _ => ⟨fun _ => findSlot_eq_some_iff, findSlot_eq_none_iff⟩

/-- Settles O32: the scan from index 0, by the induction over the slots behind `lookupFrom_eq_some`. -/
theorem lookupStopsAtTheFirstFreeSlot : Obligations.LookupStopsAtTheFirstFreeSlot :=
  fun _ _ _ _ => lookup_eq_some_iff

/-- In a legal registry every slot before an occupied one is occupied with another id. -/
theorem State.occupied_before {s : State} (hs : s.registryLegal) {k : Nat} {x : Slot} (hx : s.slots[k]? = some x)
    (hocc : x.desc ≠ []) : ∀ i < k, ∃ y, s.slots[i]? = some y ∧ y.desc ≠ [] ∧ y.devId ≠ x.devId := by
  obtain ⟨-, hfirst, hids, -, -⟩ := hs
  rw [occupiedFirst_iff_pairwise, List.pairwise_iff_getElem] at hfirst
  rw [idsDistinct_iff_pairwise, List.pairwise_iff_getElem] at hids
  obtain ⟨hk, rfl⟩ := List.getElem?_eq_some_iff.1 hx
  intro i hik
  have hi : i < s.slots.length := hik.trans hk
  have hiocc : s.slots[i].desc ≠ [] := fun hfree => hocc (hfirst i k hi hk hik hfree)
  exact ⟨s.slots[i], List.getElem?_eq_getElem hi, hiocc, hids i k hi hk hik hiocc hocc⟩

/-- In a legal registry `find_slot` gives the occupied slot with the id where there is one. -/
theorem State.findSlot_of_occupied {s : State} (hs : s.registryLegal) {k : Nat} {x : Slot}
    (hx : s.slots[k]? = some x) (hocc : x.desc ≠ []) : findSlot x.devId s.slots = some k :=
  findSlot_eq_some_iff.2 ⟨⟨x, hx, .inr rfl⟩, State.occupied_before hs hx hocc⟩

/-- R138 (c): an occupied slot of a legal registry has an id of at most 127. -/
theorem State.devId_le_of_occupied {s : State} (hs : s.registryLegal) {k : Nat} {x : Slot}
    (hx : s.slots[k]? = some x) (hocc : x.desc ≠ []) : x.devId.toNat ≤ 127 := by
  obtain ⟨-, -, -, hranges, -⟩ := hs
  exact (hranges x (List.mem_of_getElem? hx) hocc).1

/-- Settles O33: in a legal registry the slots before an occupied one never stop the scan, and none of them has its
id; an id above 127 stands in no occupied slot. -/
theorem lookupFindsTheSlotOfAnId : Obligations.LookupFindsTheSlotOfAnId := by
  intro s id hs
  refine ⟨fun k x => ⟨lookup_some, ?found⟩, ?above⟩
  case found =>
    rintro ⟨hx, hocc, rfl⟩
    exact lookup_eq_some_iff.2 ⟨hx, hocc, rfl, State.occupied_before hs hx hocc⟩
  case above =>
    intro hid
    refine Option.eq_none_iff_forall_ne_some.2 fun ⟨k, x⟩ hfound => ?_
    obtain ⟨hx, hocc, rfl⟩ := lookup_some hfound
    exact Nat.not_lt.2 (State.devId_le_of_occupied hs hx hocc) hid

end Sys2Proof.Machine
end

section
/-! What each host command does to the registry, and that it stays legal. -/

namespace Sys2Proof.Machine

/-- R40: overwriting an occupied slot by an occupied one keeps `device_count`. -/
theorem deviceCount_set {slots : List Slot} {k : Nat} {x y : Slot} (hx : slots[k]? = some x) (hxocc : x.desc ≠ [])
    (hyocc : y.desc ≠ []) : deviceCount (slots.set k y) = deviceCount slots := by
  obtain ⟨hk, rfl⟩ := List.getElem?_eq_some_iff.1 hx
  have hpos : 0 < slots.countP fun x => x.desc != [] :=
    List.countP_pos_iff.2 ⟨slots[k], List.getElem_mem hk, by simpa using hxocc⟩
  rw [deviceCount, deviceCount, List.countP_set hk]
  simp only [bne_iff_ne, ne_eq, hxocc, hyocc, not_false_eq_true, if_true]
  omega

-- CONFIGURE, by the branches of R130.

section
variable {s : State} {id : Byte} {poll : Nat} {desc unit : List Byte} {k : Nat}

/-- An accepted CONFIGURE with an operand out of range is refused (R131). -/
theorem State.configure_of_refusal {r : RefuseReason} (h : configureRefusal s.params id poll desc unit = some r) :
    s.configure id poll desc unit = s.refuse r := by
  simp only [State.configure, h]

/-- In-range operands without a description: the silent drop (R130). -/
theorem State.configure_of_no_desc (hok : configureRefusal s.params id poll [] unit = none) :
    s.configure id poll [] unit = s.drop .configNoDesc := by
  simp only [State.configure, hok, if_true]

/-- In-range operands and no slot to write: the silent drop (R134). -/
theorem State.configure_of_full (hok : configureRefusal s.params id poll desc unit = none) (hdesc : desc ≠ [])
    (hfull : findSlot id s.slots = none) : s.configure id poll desc unit = s.drop .registryFull := by
  simp only [State.configure, hok, hdesc, if_false, hfull]

/-- In-range operands and a slot to write, after setup: the slot write alone (R133). -/
theorem State.configure_of_set_up (hok : configureRefusal s.params id poll desc unit = none) (hdesc : desc ≠ [])
    (hfound : findSlot id s.slots = some k) (hset : s.setupDone = true) :
    s.configure id poll desc unit = s.writeSlot k (configuredSlot id poll desc unit) := by
  simp only [State.configure, hok, hdesc, if_false, hfound, State.writeSlot_setupDone, hset, if_true]

/-- In-range operands and a slot to write, before setup: the slot write and the one-time setup (R135). -/
theorem State.configure_of_not_set_up (hok : configureRefusal s.params id poll desc unit = none) (hdesc : desc ≠ [])
    (hfound : findSlot id s.slots = some k) (hset : s.setupDone = false) :
    s.configure id poll desc unit = (s.writeSlot k (configuredSlot id poll desc unit)).doSetup := by
  simp only [State.configure, hok, hdesc, if_false, hfound, State.writeSlot_setupDone, hset, Bool.false_eq_true]

/-- R35: in `OFF` and in `LISTEN` a CONFIGURE has its effect. -/
theorem exec_hostConfigure_of_ready (hphase : s.phase = .off ∨ s.phase = .listen) :
    exec (.hostConfigure id poll desc unit) s = .next (s.configure id poll desc unit) := by
  rw [exec_hostConfigure, State.takeIf_of_enabled (s.hostReady_iff.2 hphase)]

-- The reasons of R131, in its order.

theorem configureRefusal_of_id {p : Params} (h : 127 < id.toNat) :
    configureRefusal p id poll desc unit = some .hostIdRange := if_pos h

theorem configureRefusal_of_poll {p : Params} (hid : id.toNat ≤ 127) (h : 2 ^ p.pollW ≤ poll) :
    configureRefusal p id poll desc unit = some .hostPollRange := by
  rw [configureRefusal, if_neg (Nat.not_lt.2 hid), if_pos h]

theorem configureRefusal_of_nul {p : Params} (hid : id.toNat ≤ 127) (hpoll : poll < 2 ^ p.pollW)
    (h : 0 ∈ desc ∨ 0 ∈ unit) : configureRefusal p id poll desc unit = some .hostNulByte := by
  rw [configureRefusal, if_neg (Nat.not_lt.2 hid), if_neg (Nat.not_le.2 hpoll), if_pos (by simpa using h)]

end

-- SET_VALUE, by what `lookup` finds (R136).

theorem State.setValue_of_lookup {s : State} {id : Byte} {v : Value} {k : Nat} {x : Slot}
    (h : lookup id s.slots = some (k, x)) : s.setValue id v = s.writeSlot k (x.withValue v) := by
  simp only [State.setValue, h]

theorem State.setValue_of_unknown {s : State} {id : Byte} {v : Value} (h : lookup id s.slots = none) :
    s.setValue id v = s.drop .unknownIdSet := by
  simp only [State.setValue, h]

/-- R136: in `OFF` and in `LISTEN` a SET_VALUE has its effect. -/
theorem exec_hostSetValue_of_ready {s : State} {id : Byte} {v : Value}
    (hphase : s.phase = .off ∨ s.phase = .listen) :
    exec (.hostSetValue id v) s = .next (s.setValue id v) := by
  rw [exec_hostSetValue, State.takeIf_of_enabled (s.hostReady_iff.2 hphase)]

/-- Every effect of an instruction keeps the registry legal, also in states that are not legal otherwise: only the slot
writes touch it, and an effect of the receive side leaves the slots and the setup as they are. -/
theorem Effect.keeps_registry {s t : State} (hs : s.registryLegal) (h : Effect s t) : t.registryLegal := by
  cases h with
  | valueSet _ hfound =>
    obtain ⟨hslot, -, -⟩ := lookup_some hfound
    exact State.registryLegal_of_same_registrations hs rfl rfl (map_withoutReading_set_withValue hslot _)
  | slotConfigured _ hok hdesc hfound hset =>
    exact State.registryLegal_of_configured hs hok hdesc hfound rfl hset rfl
  | setUp _ hok hdesc hfound => exact State.registryLegal_of_configured hs hok hdesc hfound rfl rfl rfl
  | _ => exact hs

/-- Settles O41: a host command is an instruction, and every instruction's effect keeps the registry legal. -/
theorem hostCommandsKeepTheRegistryLegal : Obligations.HostCommandsKeepTheRegistryLegal :=
  fun _ _ _ hs h => (exec_effect h).keeps_registry hs

/-- Settles O42: `find_slot` gives the slot that holds the id, so CONFIGURE overwrites an occupied slot by an occupied
one. -/
theorem reconfigureKeepsTheDeviceCount : Obligations.ReconfigureKeepsTheDeviceCount := by
  rintro s - poll desc unit k x hs hphase hset hpoll hdescNul hunitNul hdesc hx hocc rfl
  have hok : configureRefusal s.params x.devId poll desc unit = none :=
    configureRefusal_eq_none.2 ⟨State.devId_le_of_occupied hs hx hocc, hpoll, hdescNul, hunitNul⟩
  have hfound : findSlot x.devId s.slots = some k := State.findSlot_of_occupied hs hx hocc
  obtain ⟨hk, -⟩ := List.getElem?_eq_some_iff.1 hx
  refine ⟨s.writeSlot k (configuredSlot x.devId poll desc unit), ?exec, ?count, ?written, ?others⟩
  case exec => rw [exec_hostConfigure_of_ready (.inr hphase), State.configure_of_set_up hok hdesc hfound hset]
  case count => exact deviceCount_set hx hocc hdesc
  case written => exact List.getElem?_set_self hk
  case others => exact fun i hi => List.getElem?_set_ne hi.symm

/-- Settles O15: none of the three has a guard, and each answers the state it is given. -/
theorem inputsWithoutEffectChangeNothing : Obligations.InputsWithoutEffectChangeNothing :=
  fun s b => ⟨exec_hostNop s, exec_rxDiscard b s, exec_rxCr s⟩

/-- Settles O34: the operands pass R131's checks, and after setup the slot write is all there is. -/
theorem configureWritesItsSlot : Obligations.ConfigureWritesItsSlot := by
  intro s id poll desc unit k hphase hid hpoll hdescNul hunitNul hdesc hfound hset
  have hok := configureRefusal_eq_none.2 ⟨hid, hpoll, hdescNul, hunitNul⟩
  rw [exec_hostConfigure_of_ready hphase, State.configure_of_set_up hok hdesc hfound hset]
  rfl

/-- Settles O35, as O34 with the one-time setup behind the slot write. -/
theorem firstConfigureSetsUp : Obligations.FirstConfigureSetsUp := by
  intro s id poll desc unit k hphase hid hpoll hdescNul hunitNul hdesc hfound hset
  have hok := configureRefusal_eq_none.2 ⟨hid, hpoll, hdescNul, hunitNul⟩
  rw [exec_hostConfigure_of_ready hphase, State.configure_of_not_set_up hok hdesc hfound hset]
  rfl

/-- Settles O36: the operands pass R131's checks, and each missing thing has its drop. -/
theorem configureWithoutEffectIsDropped : Obligations.ConfigureWithoutEffectIsDropped := by
  intro s id poll desc unit hphase hid hpoll hdescNul hunitNul
  have hok := configureRefusal_eq_none.2 ⟨hid, hpoll, hdescNul, hunitNul⟩
  rw [exec_hostConfigure_of_ready hphase]
  refine ⟨?noDesc, fun hdesc hfull => ?full⟩
  case noDesc =>
    rintro rfl
    rw [State.configure_of_no_desc hok]
    rfl
  case full =>
    rw [State.configure_of_full hok hdesc hfull]
    rfl

/-- Settles O37: each clause is the reason of the first check that fails. -/
theorem configureOutOfRangeIsRefused : Obligations.ConfigureOutOfRangeIsRefused := by
  intro s id poll desc unit hphase
  rw [exec_hostConfigure_of_ready hphase]
  refine ⟨fun hid => ?id, fun hid hpoll => ?poll, fun hid hpoll hnul => ?nul⟩
  case id => rw [State.configure_of_refusal (configureRefusal_of_id hid)]; rfl
  case poll => rw [State.configure_of_refusal (configureRefusal_of_poll hid hpoll)]; rfl
  case nul => rw [State.configure_of_refusal (configureRefusal_of_nul hid hpoll hnul)]; rfl

/-- Settles O38: the branches of SET_VALUE are those of its `lookup`. -/
theorem setValueStoresAndMarks : Obligations.SetValueStoresAndMarks := by
  intro s id v hphase
  rw [exec_hostSetValue_of_ready hphase]
  refine ⟨fun k x hfound => ?found, fun hnone => ?unknown⟩
  case found => rw [State.setValue_of_lookup hfound]; rfl
  case unknown => rw [State.setValue_of_unknown hnone]; rfl

end Sys2Proof.Machine
end

section
/-! What each byte received in `LISTEN` does to the frame under assembly. -/

namespace Sys2Proof.Machine

/-- R150: a `'?'` is taken in `LISTEN` while no frame is assembled. -/
theorem exec_rxStart_of_idle {s : State} (hphase : s.phase = .listen) (hidx : s.faIdx = 0) :
    exec .rxStart s = .next (s.storeByte s.faIdx Ascii.question) := by
  rw [exec_rxStart, State.takeIf_of_enabled (by simp [State.rxReady, hphase, hidx]), hidx]

/-- Settles O14: the byte is stored behind an empty frame. -/
theorem startMarkerBeginsAFrame : Obligations.StartMarkerBeginsAFrame := by
  intro s hphase hidx
  refine ⟨_, exec_rxStart_of_idle hphase hidx, ?state, fun hlen hroom => ?frame⟩
  case state => rw [State.storeByte, hidx]
  case frame =>
    have hempty : s.frame = [] := by rw [State.frame, hidx, List.take_zero]
    rw [State.frame_storeByte _ (by omega), hempty, List.nil_append]

/-- Inside a frame a storable byte is taken wherever the question of room (R154, R155) is answered as asked. -/
theorem State.frameTakes {s : State} {b : Byte} {room : Bool} (hphase : s.phase = .listen) (hidx : 0 < s.faIdx)
    (hroom : room = true) (hcr : b ≠ Ascii.cr) (hlf : b ≠ Ascii.lf) :
    (s.rxReady && s.faIdx != 0 && room && storable b) = true := by
  rw [s.frameEnds hphase hidx, hroom, (storable_iff b).2 ⟨hcr, hlf⟩]
  rfl

/-- Settles O16: the byte is storable and has room, so it is stored behind the frame. -/
theorem dataByteIsAppended : Obligations.DataByteIsAppended := by
  intro s b hphase hidx hroom hcr hlf
  have hexec : exec (.rxData b) s = .next (s.storeByte s.faIdx b) := by
    rw [exec_rxData, State.takeIf_of_enabled (State.frameTakes hphase hidx (decide_eq_true hroom) hcr hlf)]
  exact ⟨_, hexec, rfl, fun hlen => State.frame_storeByte b (hlen ▸ hroom)⟩

/-- Settles O17: the byte is storable and has no room, so the frame is dropped and the byte with it. -/
theorem overlongFrameIsAbandoned : Obligations.OverlongFrameIsAbandoned := by
  intro s b hphase hidx hfull hcr hlf
  rw [exec_rxOverflow, State.takeIf_of_enabled (State.frameTakes hphase hidx (decide_eq_true hfull.ge) hcr hlf)]
  rfl

/-- A request instruction works on its request wherever a frame can end (R178). -/
theorem exec_request_of_listen {s : State} (hphase : s.phase = .listen) (hidx : 0 < s.faIdx) (op : Opcode)
    (r : Request) : exec (requestInstr op r) s = .next (s.processRequest op r) := by
  rw [exec_request, State.takeIf_of_enabled (s.frameEnds hphase hidx)]

/-- The `\n` that ends a frame of the shape of R170 works on the request in it (R153). -/
theorem exec_rxLf_of_request {s : State} (hphase : s.phase = .listen) (hidx : 0 < s.faIdx) {op : Opcode}
    {r : Request} (hframe : s.frame = r.bytes op) : exec .rxLf s = .next (s.processRequest op r) := by
  rw [exec_rxLf, State.takeIf_of_enabled (s.frameEnds hphase hidx), hframe, State.endOfFrame_bytes]

/-- Settles O19: RX_LF and the request instruction do the same work on the request, and the `\n` received decodes to
the latter. -/
theorem lineEndRunsTheValidator : Obligations.LineEndRunsTheValidator := by
  intro s op r hphase hidx hframe
  have hlf := exec_rxLf_of_request hphase hidx hframe
  refine ⟨hlf.trans (exec_request_of_listen hphase hidx op r).symm, hlf, fun rest h => ?step⟩
  have hst : s.assembler ≠ .idle := mt s.assembler_eq_idle_iff.1 hidx.ne'
  have hdecode : decodeFrame s.frame = .ok (requestInstr op r) := by rw [hframe, decodeFrame_bytes]
  rw [step_rx h (s.rxReady_iff.2 hphase), decodeReceived_lf_of_frame hst hdecode]
  rfl

end Sys2Proof.Machine
end

section
/-! What the end of a frame answers: the silent drops, the one reply, and why no CRC digits but the computed ones pass
(R170 to R180). -/

namespace Sys2Proof.Machine

-- The handlers where they drop the request (R175 to R177).

theorem State.processRequest_of_crc_mismatch {s : State} {op : Opcode} {r : Request}
    (h : requestCrc r ≠ crc16Of (r.covered op)) : s.processRequest op r = s.finishSilent .crcMismatch :=
  if_neg (mt (requestCrcOk_iff op r).1 h)

theorem State.discovery_of_unknown {s : State} {id : Byte} (h : lookup id s.slots = none) :
    s.discovery id = s.finishSilent .unknownId := by
  simp only [State.discovery, h]

theorem State.poll_of_unknown {s : State} {id : Byte} (h : lookup id s.slots = none) :
    s.poll id = s.finishSilent .unknownId := by
  simp only [State.poll, h]

theorem State.poll_of_no_value {s : State} {id : Byte} {k : Nat} {x : Slot} (h : lookup id s.slots = some (k, x))
    (hv : x.haveValue = false) : s.poll id = s.finishSilent .noPendingValue := by
  simp only [State.poll, h, hv, Bool.false_eq_true, if_false]

/-- R170: a frame that is no request's is dropped. -/
theorem State.endOfFrame_of_malformed {s : State} {bs : List Byte}
    (h : ¬ ∃ (op : Opcode) (r : Request), bs = r.bytes op) : s.endOfFrame bs = s.finishSilent .frameMalformed := by
  rcases s.endOfFrame_cases bs with hdrop | ⟨op, r, hbs, -⟩
  · exact hdrop
  · exact absurd ⟨op, r, hbs⟩ h

/-- Settles O18: the stored frame fails validation step 1. -/
theorem malformedFrameIsDropped : Obligations.MalformedFrameIsDropped := by
  intro s hphase hidx hframe
  rw [exec_rxLf, State.takeIf_of_enabled (s.frameEnds hphase hidx), State.endOfFrame_of_malformed hframe]
  rfl

/-- Settles O23: each clause is one drop, of the CRC check or of a handler. -/
theorem unanswerableRequestIsDropped : Obligations.UnanswerableRequestIsDropped := by
  intro s r hphase hidx
  have hdiscover : exec (.reqDiscover r) s = _ := exec_request_of_listen hphase hidx .discover r
  have hpoll : exec (.reqPoll r) s = _ := exec_request_of_listen hphase hidx .poll r
  rw [hdiscover, hpoll]
  refine ⟨fun hcrc => ?_, fun hcrc => ?_, fun hcrc hid => ?_, fun hcrc hid => ?_, ?_⟩
  · rw [State.processRequest_of_crc_mismatch hcrc]; rfl
  · rw [State.processRequest_of_crc_mismatch hcrc]; rfl
  · rw [State.processRequest_discover hcrc, State.discovery_of_unknown hid]; rfl
  · rw [State.processRequest_poll hcrc, State.poll_of_unknown hid]; rfl
  · rintro hcrc ⟨k, x, hfound, hvalue⟩
    rw [State.processRequest_poll hcrc, State.poll_of_no_value hfound hvalue]
    rfl

/-- Settles O26, by the cases of the frame's shape and of the request in it; the slot a reply is about is the one
`lookup` found. -/
theorem endOfFrameDropsOrStartsOneReply : Obligations.EndOfFrameDropsOrStartsOneReply := by
  intro s bs
  rcases s.endOfFrame_cases bs with h | ⟨op, r, -, h⟩
  · exact .inl ⟨_, List.mem_cons_self, h⟩
  · rw [h]
    rcases s.processRequest_cases op r with ⟨tag, htag, hdrop⟩ | ⟨k, x, hfound, hreply⟩
    · exact .inl ⟨tag, List.mem_cons_of_mem _ htag, hdrop⟩
    · obtain ⟨hslot, hocc, -⟩ := lookup_some hfound
      rw [encodeDiscovery_eq_take, encodePoll_eq_take] at hreply
      refine .inr ⟨k, x, hslot, hocc, ?_⟩
      rcases hreply with ⟨-, hdiscovery⟩ | ⟨-, hvalue, hpoll⟩
      · exact .inl hdiscovery
      · exact .inr ⟨hvalue, hpoll⟩

-- The received CRC (R172, R180).

/-- R105, R111: different nibbles are written with different digits. -/
theorem hexDigit_injective : Function.Injective hexDigit :=
  Function.LeftInverse.injective hexValue_hexDigit

/-- R172, R106: writing the CRC read from four digits gives the same digits, in lower case. -/
theorem hex4_hexQuad (d3 d2 d1 d0 : Byte) : hex4 (hexQuad d3 d2 d1 d0) =
    [hexDigit (hexValue d3), hexDigit (hexValue d2), hexDigit (hexValue d1), hexDigit (hexValue d0)] := by
  simp only [hex4, List.cons.injEq, hexDigit_injective.eq_iff, and_true]
  refine ⟨?_, ?_, ?_, ?_⟩ <;>
  · ext i hi
    interval_cases i <;> simp [hexQuad]

/-- Four digits read as the same CRC exactly where each reads as the same nibble. -/
theorem hexQuad_eq_iff {d3 d2 d1 d0 e3 e2 e1 e0 : Byte} : hexQuad d3 d2 d1 d0 = hexQuad e3 e2 e1 e0 ↔
    hexValue d3 = hexValue e3 ∧ hexValue d2 = hexValue e2 ∧ hexValue d1 = hexValue e1 ∧ hexValue d0 = hexValue e0 := by
  constructor
  · intro h
    simpa [hex4_hexQuad, hexDigit_injective.eq_iff] using congrArg hex4 h
  · rintro ⟨h3, h2, h1, h0⟩
    simp only [hexQuad, h3, h2, h1, h0]

/-- Settles O25: both requests are checked against the one CRC of the bytes they share, and what is compared with it
is the value of the four digits. -/
theorem exactlyTheComputedCrcIsAccepted : Obligations.ExactlyTheComputedCrcIsAccepted := by
  intro op r r' hcovered hok
  rw [requestCrcOk_iff] at hok
  rw [requestCrcOk_iff, ← hcovered, ← hok]
  exact hexQuad_eq_iff

-- The end of a poll's reply (R199).

/-- The end of a reply keeps the registry legal: it clears at most a reading's mark. -/
theorem State.registryLegal_endReply {s : State} (hs : s.registryLegal) : s.endReply.registryLegal := by
  rw [State.endReply_eq]
  refine State.registryLegal_of_same_registrations hs rfl rfl ?_
  cases s.pendingClear with
  | none => rfl
  | some k => exact map_withoutReading_modify_delivered s.slots k

/-- The slot whose value the reply delivered has none pending behind it. -/
theorem State.endReply_slot {s : State} {k : Nat} {x : Slot} (hclear : s.pendingClear = some k)
    (hx : s.slots[k]? = some x) : s.endReply.slots[k]? = some x.delivered := by
  simp [State.endReply_eq, hclear, hx]

/-- Settles O48: the registry is still legal, so `lookup` finds the slot again, now without a value. -/
theorem deliveredValueIsNotDeliveredAgain : Obligations.DeliveredValueIsNotDeliveredAgain := by
  intro s k x hs hclear hx hocc
  have hslot := State.endReply_slot hclear hx
  have hfound : lookup x.devId s.endReply.slots = some (k, x.delivered) :=
    ((lookupFindsTheSlotOfAnId s.endReply x.devId (State.registryLegal_endReply hs)).1 k x.delivered).2
      ⟨hslot, hocc, rfl⟩
  exact State.poll_of_no_value hfound rfl

end Sys2Proof.Machine
end

section
/-! The response encoder's texts: the rendered value (R194), the bounded body (R190 to R192) and the wire image's bytes
(R202). -/

namespace Sys2Proof.Machine

-- Digits of a fixed width.

theorem length_fixedDigits (k n : Nat) : (fixedDigits k n).length = k := by
  induction k generalizing n with
  | zero => rfl
  | succ k ih => rw [fixedDigits, List.length_append, ih, List.length_singleton]

theorem mem_fixedDigits {k n : Nat} {b : Byte} (h : b ∈ fixedDigits k n) : ∃ d < 10, b = decDigit d := by
  induction k generalizing n with
  | zero => cases h
  | succ k ih =>
    rcases List.mem_append.1 h with h | h
    · exact ih h
    · exact ⟨n % 10, Nat.mod_lt _ (by decide), List.mem_singleton.1 h⟩

theorem toNat_of_mem_fixedDigits {k n : Nat} {b : Byte} (h : b ∈ fixedDigits k n) :
    0x30 ≤ b.toNat ∧ b.toNat ≤ 0x39 := by
  obtain ⟨d, hd, rfl⟩ := mem_fixedDigits h
  rw [toNat_decDigit hd]
  omega

/-- The `k` digits read as the number cut to `k` decimal places: each one adds the lowest place. -/
theorem foldl_readDigit_fixedDigits (k n : Nat) : (fixedDigits k n).foldl readDigit 0 = n % 10 ^ k := by
  induction k generalizing n with
  | zero => rw [Nat.pow_zero, Nat.mod_one]; rfl
  | succ k ih =>
    calc (fixedDigits (k + 1) n).foldl readDigit 0
        = readDigit ((fixedDigits k (n / 10)).foldl readDigit 0) (decDigit (n % 10)) := List.foldl_concat ..
      _ = 10 * (n / 10 % 10 ^ k) + n % 10 := by rw [ih, readDigit_decDigit (Nat.mod_lt _ (by decide))]
      _ = n % 10 ^ (k + 1) := by rw [Nat.pow_succ', Nat.mod_mul, Nat.add_comm]

/-- Settles O8: the fraction is the six digits of the millionths, which are below `10 ^ 6`. -/
theorem renderedValueHasSixFractionDigits : Obligations.RenderedValueHasSixFractionDigits := by
  refine ⟨rfl, rfl, fun micros => ⟨fixedDigits 6 (micros.natAbs % 1000000), rfl, length_fixedDigits _ _,
    fun _ => toNat_of_mem_fixedDigits, ?_⟩⟩
  exact (foldl_readDigit_fixedDigits 6 _).trans (Nat.mod_mod _ _)

/-- Settles O28: both bodies are built by appends that each cut the text they extend to the buffer. -/
theorem encoderLeavesTheTruncatedText : Obligations.EncoderLeavesTheTruncatedText := fun max x =>
  ⟨encodeDiscovery_eq_take max x, encodePoll_eq_take max x⟩

/-- R202: what a reply puts around its body is no `'?'`. -/
theorem question_not_mem_wire {body : List Byte} (max : Nat) (h : Ascii.question ∉ body) :
    Ascii.question ∉ wire max body := by
  have hbody : Ascii.question ∉ body.take max := mt List.mem_of_mem_take h
  have hcrc : Ascii.question ∉ hex4 (crc16Of (body.take max)) := by
    simp [hex4, (hexDigit_ne_question _).symm]
  simp only [wire, List.mem_append, not_or]
  exact ⟨⟨⟨by decide, hbody⟩, hcrc⟩, by decide⟩

/-- Settles O29: neither body holds a `'?'`, so neither wire image does. -/
theorem noReplyHoldsAQuestionMark : Obligations.NoReplyHoldsAQuestionMark := fun max x =>
  ⟨question_not_mem_wire max (question_not_mem_bodyDiscovery x),
    question_not_mem_wire max (question_not_mem_bodyPoll x)⟩

end Sys2Proof.Machine
end

section
/-! The transmitter's writes, phase by phase (R195 to R198): the byte offered, and the fields that its write leaves. -/

namespace Sys2Proof.Machine

/-- R106: digit `i` of a CRC is that of its nibble `i`, counted from the high end. -/
theorem hex4_getElem? (c : Crc) {i : Nat} (h : i < 4) :
    (hex4 c)[i]? = some (hexDigit (c.extractLsb' (12 - 4 * i) 4)) := by
  interval_cases i <;> rfl

section
variable (s : State) {b : Byte}

theorem State.txByte_of_txSync (h : s.phase = .txSync) : s.txByte = some Ascii.sync := by rw [State.txByte, h]

theorem State.txByte_of_txBody (h : s.phase = .txBody) : s.txByte = s.resp[s.txPos]? := by rw [State.txByte, h]

theorem State.txByte_of_txCrc (h : s.phase = .txCrc) (hpos : s.txPos < 4) :
    s.txByte = some (hexDigit (s.crcAcc.extractLsb' (12 - 4 * s.txPos) 4)) := by
  rw [State.txByte, h]
  exact hex4_getElem? s.crcAcc hpos

theorem State.txByte_of_txCr (h : s.phase = .txCr) : s.txByte = some Ascii.cr := by rw [State.txByte, h]

theorem State.txByte_of_txLf (h : s.phase = .txLf) : s.txByte = some Ascii.lf := by rw [State.txByte, h]

theorem State.advance_of_txSync (h : s.phase = .txSync) :
    s.advance b = { s with crcAcc := 0, txPos := 0, phase := .txBody } := by
  rw [State.advance, h]
  rfl

/-- R196: the last body byte leaves `tx_pos` for the first CRC digit. -/
theorem State.advance_of_txBody (h : s.phase = .txBody) :
    s.advance b = { s with
      crcAcc := crc16Step b s.crcAcc
      txPos := if s.txPos + 1 = s.resp.length then 0 else s.txPos + 1
      phase := if s.txPos + 1 = s.resp.length then .txCrc else .txBody } := by
  rw [State.advance, h]
  by_cases hlast : s.txPos + 1 = s.resp.length
  · simp only [if_pos hlast, State.setCursor, State.setPhase]
  · simp only [if_neg hlast, State.setCursor, h]

/-- R197: the last CRC digit leaves `tx_pos` as it is. -/
theorem State.advance_of_txCrc (h : s.phase = .txCrc) :
    s.advance b = { s with
      txPos := if s.txPos = 3 then 3 else s.txPos + 1
      phase := if s.txPos = 3 then .txCr else .txCrc } := by
  rw [State.advance, h]
  by_cases hlast : s.txPos = 3
  · simp only [hlast, if_true, State.setPhase]
  · simp only [if_neg hlast, State.setCursor, h]

theorem State.advance_of_txCr (h : s.phase = .txCr) : s.advance b = { s with phase := .txLf } := by
  rw [State.advance, h]
  rfl

theorem State.advance_of_txLf (h : s.phase = .txLf) : s.advance b = { s with phase := .txDrain } := by
  rw [State.advance, h]
  rfl

end

/-- R200: the step that writes a byte, where the sequencer moves on to the CRC `c`, the position `i` and the phase `p`:
`txc` is cleared, and nothing else changes. -/
theorem step_write_of_advance {s : State} {b : Byte} {c : Crc} {i : Nat} {p : Phase} {rest : List Input}
    (hready : s.txReady = true) (h : s.inputs = takeByte :: rest) (hb : s.txByte = some b)
    (hadv : (s.withInputs rest).advance b = { s with crcAcc := c, txPos := i, phase := p, inputs := rest }) :
    step s = .next { s with
      crcAcc := c, txPos := i, phase := p, txc := false, inputs := rest
      outs := s.outs ++ [.txWrite b s.de] } := by
  rw [step_write (xs := rest) hb hready h, hadv]
  rfl

/-- Settles O44: in each of the three phases the byte offered is fixed. -/
theorem syncByteAndTerminatorAreWritten : Obligations.SyncByteAndTerminatorAreWritten := by
  intro s rest hready h
  refine ⟨fun hsync => ?_, fun hcr => ?_, fun hlf => ?_⟩
  · exact step_write_of_advance hready h (s.txByte_of_txSync hsync) ((s.withInputs rest).advance_of_txSync hsync)
  · exact step_write_of_advance hready h (s.txByte_of_txCr hcr) ((s.withInputs rest).advance_of_txCr hcr)
  · exact step_write_of_advance hready h (s.txByte_of_txLf hlf) ((s.withInputs rest).advance_of_txLf hlf)

/-- Settles O45: the byte offered is that of the body at `tx_pos`. -/
theorem bodyByteIsWrittenAndAccumulated : Obligations.BodyByteIsWrittenAndAccumulated := by
  intro s rest b hready h hphase hb
  exact step_write_of_advance hready h ((s.txByte_of_txBody hphase).trans hb)
    ((s.withInputs rest).advance_of_txBody hphase)

/-- Settles O46: the byte offered is the digit of `crc_acc` at `tx_pos`. -/
theorem crcDigitsAreWrittenHighNibbleFirst : Obligations.CrcDigitsAreWrittenHighNibbleFirst := by
  intro s rest hready h hphase hpos
  exact step_write_of_advance hready h (s.txByte_of_txCrc hphase hpos)
    ((s.withInputs rest).advance_of_txCrc hphase)

end Sys2Proof.Machine
end

section
/-! The direction controller: when `de` may change, and that every write happens in transmit mode (R222 to R227). -/

namespace Sys2Proof.Machine

/-- All that a step can do: an effect of an instruction (a wait is the one that changes nothing), or the step of a label
that is enabled, each in the state that differs from `s` in the UART's pins and the inputs only. -/
theorem step_next {s t : State} (h : step s = .next t) :
    ∃ ready txc rest,
      let u : State := { s with txReady := ready, txc := txc, inputs := rest }
      Effect u t ∨ ∃ l, u.labelEnabled l = true ∧ s.fetch = .label l u ∧ u.onLabel l = .next t := by
  obtain ⟨ready, txc, rest, -, hcases⟩ := step_cases s
  refine ⟨ready, txc, rest, ?_⟩
  rcases hcases with ⟨-, hstep⟩ | ⟨c, -, -, -, hstep⟩ | ⟨b, -, -, -, hstep⟩ | ⟨l, -, he, hfetch, hstep⟩ <;>
    rw [hstep] at h
  case inl => cases h; exact .inl .unchanged
  case inr.inl => exact .inl (exec_effect h)
  case inr.inr.inl => exact .inl (exec_effect h)
  case inr.inr.inr => exact .inr ⟨l, he, hfetch, h⟩

-- The waits of the turn and the end of a reply, as single steps.

/-- Settles O43: each delay's label is enabled in its phase, and its step sets the phase alone. -/
theorem delaysEndInTheirPhases : Obligations.DelaysEndInTheirPhases := by
  intro s rest
  constructor
  · intro hphase h
    exact step_label h (by simp [State.labelEnabled, hphase])
  · intro hphase h
    exact step_label h (by simp [State.labelEnabled, hphase])

/-- Settles O47: in `TX_DRAIN` with `txc` set the label is enabled, and its step is the end of the reply. -/
theorem transmitCompleteEndsTheReply : Obligations.TransmitCompleteEndsTheReply := by
  intro s rest hphase htxc h
  rw [step_label h (by simp [State.labelEnabled, hphase, htxc]), State.onLabel, State.endReply_eq]
  rfl

-- Writes (R227).

theorem writtenInTransmit_append (xs ys : List OutLabel) :
    writtenInTransmit (xs ++ ys) = (writtenInTransmit xs && writtenInTransmit ys) := by
  induction xs with
  | nil => rfl
  | cons o xs ih => cases o <;> simp [writtenInTransmit, ih, Bool.and_assoc]

/-- No instruction writes a byte: the only output of one is the UART's configuration (R135). -/
theorem Effect.writtenInTransmit_eq {s t : State} (h : Effect s t) :
    writtenInTransmit t.outs = writtenInTransmit s.outs := by
  cases h with
  | setUp => simp [State.doSetup, writtenInTransmit_append, writtenInTransmit]
  | _ => rfl

/-- A label writes a byte only within a reply, where the invariant has `de = TX`. -/
theorem State.onLabel_writtenInTransmit {s t : State} {l : Label} (hs : s.Inv) (h : s.onLabel l = .next t) :
    writtenInTransmit t.outs = writtenInTransmit s.outs := by
  cases l with
  | txWrite =>
    obtain ⟨b, hb, rfl⟩ := State.transmit_next h
    have hde : s.de = .tx := hs.de_of_busy (Phase.busy_of_writing (State.txByte_writing hb))
    obtain ⟨c, i, p, hadv⟩ := s.advance_eq b
    simp [hadv, hde, writtenInTransmit_append, writtenInTransmit]
  | txComplete => cases h; rw [State.endReply_eq]
  | _ => cases h; rfl

/-- Settles O57: an instruction writes nothing, and a label only while a reply is sent. -/
theorem everyWriteIsInTransmitMode : Obligations.EveryWriteIsInTransmitMode := by
  intro s t hs hwritten h
  obtain ⟨ready, txc, rest, hnext⟩ := step_next h
  have hu : ({ s with txReady := ready, txc := txc, inputs := rest } : State).Inv := hs
  rcases hnext with heffect | ⟨l, -, -, hlabel⟩
  · exact heffect.writtenInTransmit_eq.trans hwritten
  · exact (State.onLabel_writtenInTransmit hu hlabel).trans hwritten

-- The switches (R221, R224, R226, R271).

theorem State.Inv.de_of_listen {s : State} (hs : s.Inv) (hphase : s.phase = .listen) : s.de = .rx := by
  obtain ⟨-, ⟨-, hrx, -⟩, -⟩ := hs
  exact hrx.2 hphase

/-- Before setup the block is in `OFF` (R23), where it drives neither direction. -/
theorem State.Inv.off_of_not_setupDone {s : State} (hs : s.Inv) (hset : s.setupDone = false) :
    s.phase = .off ∧ s.de = .undriven := by
  obtain ⟨-, ⟨htx, hrx, hoff⟩, -⟩ := hs
  have hphase : s.phase = .off := by
    by_contra hne
    simp [hoff.2 hne] at hset
  refine ⟨hphase, ?_⟩
  cases hde : s.de with
  | undriven => rfl
  | rx => cases hphase.symm.trans (hrx.1 hde)
  | tx => exact absurd hphase (Phase.ne_off_of_busy (htx.1 hde))

/-- The instructions that change `de`: the CONFIGURE that sets up, and the request that starts a reply. -/
theorem Effect.switches {s t : State} (hs : s.Inv) (h : Effect s t) (hde : t.de ≠ s.de) :
    (s.de = .undriven ∧ t.de = .rx ∧ s.phase = .off ∧ s.setupDone = false ∧ t.setupDone = true) ∨
      (s.de = .rx ∧ t.de = .tx ∧ s.phase = .listen ∧ t.phase = .txTurn ∧ s.faIdx ≠ 0) := by
  cases h with
  | setUp _ _ _ _ hset =>
    obtain ⟨hphase, hundriven⟩ := hs.off_of_not_setupDone hset
    exact .inl ⟨hundriven, rfl, hphase, hset, rfl⟩
  | discoveryReply hphase hidx => exact .inr ⟨hs.de_of_listen hphase, rfl, hphase, rfl, hidx⟩
  | pollReply hphase hidx => exact .inr ⟨hs.de_of_listen hphase, rfl, hphase, rfl, hidx⟩
  | _ => exact absurd rfl hde

/-- The labels that change `de`: the end of a reply, with `txc` set, and reset. -/
theorem State.onLabel_switches {s t : State} {l : Label} (hs : s.Inv) (he : s.labelEnabled l = true)
    (h : s.onLabel l = .next t) (hde : t.de ≠ s.de) :
    (l = .txComplete ∧ s.de = .tx ∧ t.de = .rx ∧ s.phase = .txDrain ∧ t.phase = .listen ∧ s.txc = true) ∨
      (l = .rst ∧ t.de = .undriven) := by
  cases l with
  | turnElapsed => cases h; exact absurd rfl hde
  | settleElapsed => cases h; exact absurd rfl hde
  | txWrite =>
    obtain ⟨b, -, rfl⟩ := State.transmit_next h
    obtain ⟨c, i, p, hadv⟩ := s.advance_eq b
    rw [hadv] at hde
    exact absurd rfl hde
  | txComplete =>
    obtain ⟨hphase, htxc⟩ : s.phase = .txDrain ∧ s.txc = true := by simpa [State.labelEnabled] using he
    have htx : s.de = .tx := hs.de_of_busy (by rw [hphase]; rfl)
    cases h
    exact .inl ⟨rfl, htx, rfl, hphase, rfl, htxc⟩
  | rst => cases h; exact .inr ⟨rfl, rfl⟩

/-- Settles O58: two of the switches are effects of instructions, two are steps of labels. -/
theorem directionChangesOnlyAtItsSwitches : Obligations.DirectionChangesOnlyAtItsSwitches := by
  intro s t hs h hde
  obtain ⟨ready, txc, rest, hnext⟩ := step_next h
  have hu : ({ s with txReady := ready, txc := txc, inputs := rest } : State).Inv := hs
  rcases hnext with heffect | ⟨l, he, hfetch, hlabel⟩
  · rcases heffect.switches hu hde with hsetup | hstart
    · exact .inl hsetup
    · exact .inr (.inl hstart)
  · rcases State.onLabel_switches hu he hlabel hde with ⟨rfl, htx, hrx, hdrain, hlisten, htxc⟩ | ⟨rfl, hundriven⟩
    · exact .inr (.inr (.inl ⟨htx, hrx, hdrain, hlisten, _, hfetch, htxc⟩))
    · exact .inr (.inr (.inr ⟨_, hfetch, hundriven⟩))

end Sys2Proof.Machine
end

section
/-! A legal state always has a next step: only the transmitter can fault (R240), and its cursor is in R28's bounds. -/

namespace Sys2Proof.Machine

/-- Every instruction answers a next state, in every state. -/
theorem exec_next (i : Instr) (s : State) : ∃ t, exec i s = .next t := by
  cases i <;> exact ⟨_, rfl⟩

/-- In the write phases of a legal state there is a byte to write: `tx_pos` names one of `resp` or of the four CRC
digits. -/
theorem State.Inv.txByte_of_writing {s : State} (hs : s.Inv) (hwriting : s.phase.writing = true) :
    ∃ b, s.txByte = some b := by
  obtain ⟨-, -, -, -, ⟨-, -, -, hbody, hcrc, -⟩⟩ := hs
  cases hp : s.phase with
  | txSync => exact ⟨_, s.txByte_of_txSync hp⟩
  | txBody =>
    obtain ⟨hpos, -⟩ := hbody hp
    exact ⟨_, (s.txByte_of_txBody hp).trans (List.getElem?_eq_getElem hpos)⟩
  | txCrc =>
    obtain ⟨hpos, -⟩ := hcrc hp
    exact ⟨_, s.txByte_of_txCrc hp hpos⟩
  | txCr => exact ⟨_, s.txByte_of_txCr hp⟩
  | txLf => exact ⟨_, s.txByte_of_txLf hp⟩
  | _ => simp [hp, Phase.writing] at hwriting

/-- A label that a legal state enables answers a next state; the write is the one that could fault. -/
theorem State.Inv.onLabel_next {s : State} {l : Label} (hs : s.Inv) (he : s.labelEnabled l = true) :
    ∃ t, s.onLabel l = .next t := by
  cases l with
  | txWrite =>
    obtain ⟨hwriting, -⟩ : s.phase.writing = true ∧ s.txReady = true := by simpa [State.labelEnabled] using he
    obtain ⟨b, hb⟩ := hs.txByte_of_writing hwriting
    exact ⟨_, by rw [State.onLabel, State.transmit, hb]⟩
  | _ => exact ⟨_, rfl⟩

/-- Settles O56: by the cases of a step; the state in which it is taken is legal, since the invariant reads neither pins
nor inputs. -/
theorem legalStatesNeverStop : Obligations.LegalStatesNeverStop := by
  intro s hs
  obtain ⟨ready, txc, rest, -, hcases⟩ := step_cases s
  have hu : ({ s with txReady := ready, txc := txc, inputs := rest } : State).Inv := hs
  rcases hcases with ⟨-, hstep⟩ | ⟨c, -, -, -, hstep⟩ | ⟨b, -, -, -, hstep⟩ | ⟨l, -, he, -, hstep⟩ <;> rw [hstep]
  case inl => exact ⟨_, rfl⟩
  case inr.inl => exact exec_next _ _
  case inr.inr.inl => exact exec_next _ _
  case inr.inr.inr => exact hu.onLabel_next he

end Sys2Proof.Machine
end

section
/-! What the steps that take no host command do to the registry: nothing, but for the `have_value` that the end of a
reply clears (R199, R248). -/

namespace Sys2Proof

/-- The instructions of received bytes and request frames; the others are host commands. -/
def Instr.received : Instr → Bool
  | .hostNop | .hostConfigure _ _ _ _ | .hostSetValue _ _ | .hostReserved => false
  | _ => true

theorem decodeByte_received (st : AssemblerState) (b : Byte) : (decodeByte st b).received = true := by
  cases st with
  | idle => rw [decodeByte]; split <;> rfl
  | accumulating =>
    rw [decodeByte]
    split
    · rfl
    · split <;> rfl
  | full =>
    rw [decodeByte]
    split
    · rfl
    · split <;> rfl

/-- No received byte decodes to a host command. -/
theorem decodeReceived_received (st : AssemblerState) (frame : List Byte) (b : Byte) :
    (decodeReceived st frame b).received = true := by
  unfold decodeReceived
  split
  · split
    · rename_i i hi
      obtain ⟨op, r, rfl, -⟩ := decodeFrame_eq_ok_iff.1 hi
      cases op <;> rfl
    · rfl
  · exact decodeByte_received st b

end Sys2Proof

namespace Sys2Proof.Machine

theorem State.takeIf_slots {s t : State} {e : Bool} {f : State → State} (h : s.takeIf e f = .next t)
    (hf : (f s).slots = s.slots) : t.slots = s.slots := by
  rcases State.takeIf_cases h with ⟨-, rfl⟩ | ⟨-, rfl⟩
  · exact hf
  · rfl

@[simp] theorem State.processRequest_slots (s : State) (op : Opcode) (r : Request) :
    (s.processRequest op r).slots = s.slots := by
  rcases s.processRequest_cases op r with ⟨tag, -, h⟩ | ⟨k, x, -, ⟨-, h⟩ | ⟨-, -, h⟩⟩ <;> rw [h] <;> rfl

@[simp] theorem State.endOfFrame_slots (s : State) (bs : List Byte) : (s.endOfFrame bs).slots = s.slots := by
  rcases s.endOfFrame_cases bs with h | ⟨op, r, -, h⟩ <;> rw [h]
  · rfl
  · exact s.processRequest_slots op r

/-- The receive side only reads the registry. -/
theorem exec_received_slots {i : Instr} {s t : State} (hi : i.received = true) (h : exec i s = .next t) :
    t.slots = s.slots := by
  cases i with
  | rxStart => rw [exec_rxStart] at h; exact State.takeIf_slots h rfl
  | rxDiscard b => cases h; rfl
  | rxCr => cases h; rfl
  | rxLf => rw [exec_rxLf] at h; exact State.takeIf_slots h (s.endOfFrame_slots _)
  | rxData b => rw [exec_rxData] at h; exact State.takeIf_slots h rfl
  | rxOverflow b => rw [exec_rxOverflow] at h; exact State.takeIf_slots h rfl
  | reqDiscover r => rw [exec_reqDiscover] at h; exact State.takeIf_slots h (s.processRequest_slots _ r)
  | reqPoll r => rw [exec_reqPoll] at h; exact State.takeIf_slots h (s.processRequest_slots _ r)
  | hostNop | hostConfigure _ _ _ _ | hostSetValue _ _ | hostReserved => cases hi

/-- The fields of a slot that the host writes and a reply leaves: all but `have_value` (R248). -/
def Slot.written (x : Slot) : List Byte × Byte × Nat × List Byte × Value :=
  (x.desc, x.devId, x.poll, x.unit, x.value)

/-- The registry `ys` differs from `xs` at most in that some `have_value` has gone from 1 to 0. -/
def OnlyCleared (xs ys : List Slot) : Prop :=
  ys.map Slot.written = xs.map Slot.written ∧
    ∀ (i : Nat) (x y : Slot), xs[i]? = some x → ys[i]? = some y → y.haveValue = true → x.haveValue = true

theorem OnlyCleared.of_eq {xs ys : List Slot} (h : ys = xs) : OnlyCleared xs ys := by
  subst h
  refine ⟨rfl, fun i x y hx hy hvalue => ?_⟩
  obtain rfl : x = y := Option.some.inj (hx.symm.trans hy)
  exact hvalue

/-- Consuming a `have_value` (R199) clears it and writes nothing else. -/
theorem OnlyCleared.modify_delivered (xs : List Slot) (k : Nat) : OnlyCleared xs (xs.modify k Slot.delivered) := by
  constructor
  · refine List.ext_getElem? fun i => ?_
    simp only [List.getElem?_map, List.getElem?_modify]
    cases xs[i]? with
    | none => rfl
    | some x => by_cases hk : k = i <;> simp [hk, Slot.delivered, Slot.written]
  · intro i x y hx hy hvalue
    by_cases hk : k = i
    · obtain rfl : x.delivered = y := by simpa [List.getElem?_modify, hk, hx] using hy
      cases hvalue
    · obtain rfl : x = y := by simpa [List.getElem?_modify, hk, hx] using hy
      exact hvalue

/-- Of the labels other than reset only the end of a reply touches the registry. -/
theorem State.onLabel_onlyCleared {s t : State} {l : Label} (hl : l ≠ .rst) (h : s.onLabel l = .next t) :
    OnlyCleared s.slots t.slots := by
  cases l with
  | turnElapsed => cases h; exact .of_eq rfl
  | settleElapsed => cases h; exact .of_eq rfl
  | txWrite =>
    obtain ⟨b, -, rfl⟩ := State.transmit_next h
    obtain ⟨c, i, p, hadv⟩ := s.advance_eq b
    rw [hadv]
    exact .of_eq rfl
  | txComplete =>
    cases h
    rw [State.endReply_eq]
    cases hclear : s.pendingClear with
    | none => exact .of_eq rfl
    | some k => exact .modify_delivered _ k
  | rst => exact absurd rfl hl

/-- Settles O59: by the cases of a step; a wait and a received byte leave the registry, and a label is reset or can only
clear a `have_value`. -/
theorem onlyTheHostWritesTheRegistry : Obligations.OnlyTheHostWritesTheRegistry := by
  intro s t h
  obtain ⟨ready, txc, rest, -, hcases⟩ := step_cases s
  rcases hcases with ⟨-, hstep⟩ | ⟨c, -, -, hfetch, -⟩ | ⟨b, -, -, -, hstep⟩ | ⟨l, -, -, hfetch, hstep⟩
  case inl =>
    rw [hstep] at h
    cases h
    exact .inr (.inr (OnlyCleared.of_eq rfl))
  case inr.inl => exact .inl ⟨c, _, hfetch⟩
  case inr.inr.inl =>
    have hslots := exec_received_slots (decodeReceived_received _ _ b) (hstep.symm.trans h)
    exact .inr (.inr (OnlyCleared.of_eq hslots))
  case inr.inr.inr =>
    by_cases hl : l = .rst
    · subst hl
      exact .inr (.inl ⟨_, hfetch⟩)
    · have hcleared := State.onLabel_onlyCleared hl (hstep.symm.trans h)
      exact .inr (.inr hcleared)

end Sys2Proof.Machine
end

section
/-! A reply stuck in `TX_DRAIN` (R246): while the UART does not raise `txc` and no reset comes, each step takes the
changes of `tx_ready` that are offered and nothing else. -/

namespace Sys2Proof.Machine

/-- A reply waits for the UART's `txc`, and the environment offers neither it nor a reset. -/
structure State.Stuck (s : State) : Prop where
  phase : s.phase = .txDrain
  txc : s.txc = false
  noRise : Input.pin .txcRise ∉ s.inputs
  noReset : Input.label .rst ∉ s.inputs

/-- Any input but a change of `tx_ready`. -/
def Input.keepsTxReady : Input → Bool
  | .pin (.txReady _) => false
  | _ => true

/-- In `TX_DRAIN` without `txc`, reset is the only step enabled. -/
theorem State.enabled_of_drain {s : State} {x : Input} (hphase : s.phase = .txDrain) (htxc : s.txc = false)
    (hpin : x.pinChange = none) (hx : x ≠ .label .rst) : s.enabled x = false := by
  cases x with
  | host c => simp [State.enabled, State.hostReady, hphase]
  | rx b => simp [State.enabled, State.rxReady, hphase]
  | pin p => cases hpin
  | label l =>
    cases l with
    | rst => exact absurd rfl hx
    | _ => simp [State.enabled, State.labelEnabled, Phase.writing, hphase, htxc]

/-- The scan of such inputs follows `tx_ready` and takes no input. -/
theorem State.scan_of_drain {s : State} {xs : List Input} (hphase : s.phase = .txDrain) (htxc : s.txc = false)
    (hrise : Input.pin .txcRise ∉ xs) (hreset : Input.label .rst ∉ xs) :
    ∃ ready, s.scan xs =
      { state := s.driveTxReady ready, taken := none, rest := xs.filter Input.keepsTxReady } := by
  induction xs generalizing s with
  | nil => exact ⟨s.txReady, rfl⟩
  | cons x xs ih =>
    rw [List.mem_cons, not_or] at hrise hreset
    obtain ⟨hxrise, hrise⟩ := hrise
    obtain ⟨hxreset, hreset⟩ := hreset
    cases hpin : x.pinChange with
    | none =>
      obtain ⟨ready, hscan⟩ := ih hphase htxc hrise hreset
      have hkeeps : x.keepsTxReady = true := by
        cases x with
        | pin p => cases hpin
        | _ => rfl
      refine ⟨ready, ?_⟩
      rw [State.scan_waiting xs (State.enabled_of_drain hphase htxc hpin (Ne.symm hxreset)), hscan,
        List.filter_cons_of_pos hkeeps]
    | some p =>
      obtain rfl : x = .pin p := by
        cases x with
        | pin q => cases hpin; rfl
        | _ => cases hpin
      cases p with
      | txReady v => exact ih (s := s.driveTxReady v) hphase htxc hrise hreset
      | txcRise => exact absurd rfl hxrise

/-- A step of a stuck reply: only `tx_ready` follows the changes offered, which are taken. -/
theorem State.Stuck.step {s : State} (hs : s.Stuck) :
    ∃ ready, step s = .next ((s.driveTxReady ready).withInputs (s.inputs.filter Input.keepsTxReady)) := by
  obtain ⟨ready, hscan⟩ := State.scan_of_drain hs.phase hs.txc hs.noRise hs.noReset
  exact ⟨ready, by simp only [Machine.step, State.fetch, hscan]⟩

/-- The reply is still stuck when `tx_ready` has changed and inputs have been taken. -/
theorem State.Stuck.of_taken {s : State} (hs : s.Stuck) (ready : Bool) (p : Input → Bool) :
    ((s.driveTxReady ready).withInputs (s.inputs.filter p)).Stuck where
  phase := hs.phase
  txc := hs.txc
  noRise h := hs.noRise (List.mem_of_mem_filter h)
  noReset h := hs.noReset (List.mem_of_mem_filter h)

/-- A run of a stuck reply, by induction on its steps. -/
theorem State.Stuck.run {s : State} (hs : s.Stuck) (n : Nat) :
    ∃ ready inputs, core.run n s = .next { s with txReady := ready, inputs := inputs } ∧
      inputs.filter Input.keepsTxReady = s.inputs.filter Input.keepsTxReady := by
  induction n generalizing s with
  | zero => exact ⟨s.txReady, s.inputs, run_zero s, rfl⟩
  | succ n ih =>
    obtain ⟨now, hstep⟩ := hs.step
    obtain ⟨ready, inputs, hrun, hinputs⟩ := ih (hs.of_taken now Input.keepsTxReady)
    refine ⟨ready, inputs, (run_succ n hstep).trans hrun, hinputs.trans ?_⟩
    simp

/-- Settles O50: a stuck reply stays stuck, step after step. -/
theorem stuckTransmitCompleteHangs : Obligations.StuckTransmitCompleteHangs := by
  intro n s hphase htxc hrise hreset
  have hs : s.Stuck := ⟨hphase, htxc, hrise, hreset⟩
  obtain ⟨ready, inputs, hrun, hinputs⟩ := hs.run n
  exact ⟨_, hrun, rfl, hinputs⟩

end Sys2Proof.Machine
end

section
/-! Reset (R270, R271): it is taken in every phase, and for all parameters R6 admits it leads to a legal state. -/

namespace Sys2Proof.Machine

/-- Reset is enabled in every state (R271), so the step takes it where it is offered first. -/
theorem step_reset {s : State} {rest : List Input} (h : s.inputs = .label .rst :: rest) :
    step s = .next (s.withInputs rest).hardReset :=
  step_label h rfl

/-- Settles O53: all slots being free, with their number, is what a registry of free slots has of R138; every other
element stands in the reset state. -/
theorem resetRestoresEveryElement : Obligations.ResetRestoresEveryElement := by
  intro s rest h
  obtain ⟨hlength, -, -, -, hfree⟩ : (s.withInputs rest).hardReset.registryLegal := State.registryLegal_of_free rfl
  exact ⟨_, step_reset h, hlength, hfree rfl, rfl, rfl, rfl, rfl, rfl, rfl, rfl, rfl, rfl, rfl, rfl, rfl, rfl⟩

/-- After reset the block is in `OFF` with a registry of free slots, nothing assembled and nothing to send. -/
theorem State.resetOf_inv {p : Params} (hp : Config.paramsLegal p) : (State.resetOf p).Inv :=
  ⟨hp, State.directionLegal_of_off rfl rfl rfl, State.registryLegal_of_free rfl,
    State.assemblerLegal_of_idle List.length_replicate rfl,
    State.transmitLegal_of_not_busy (Nat.zero_le _) List.not_mem_nil rfl rfl⟩

/-- Settles O54: `State.reset` is the reset state for parameters that are legal themselves. -/
theorem resetStateIsLegal : Obligations.ResetStateIsLegal :=
  have hreference : Config.paramsLegal Config.referenceParams := by decide
  ⟨fun _ hp => State.resetOf_inv hp, State.resetOf_inv hreference⟩

end Sys2Proof.Machine
end
